-- ==== Sys2Proof/Word.lean ====
section
/-! DEFINITION. The word type of the command and response ports (`30_encoding.md` R70) and the small closed
value sets of `00_scope.md` R9 and R5. -/

namespace Sys2Proof

/-- A command word or a response word: 32 bits, bit 31 the most significant (R51, R70). -/
abbrev Word := BitVec 32

/-- The kinds of a frame position (R9). The spec's fourth two-bit code `11` is never produced (K16),
so there is no fourth constructor. -/
inductive BitKind where
  | zero
  | one
  | marker
deriving DecidableEq, Repr

/-- The pulse phase of the current bit (R9, R28). -/
inductive Phase where
  | low
  | high
deriving DecidableEq, Repr

/-- The parameter `DUT1_SIGN` (R5, R167). -/
inductive Dut1Sign where
  | neg
  | pos
deriving DecidableEq, Repr

end Sys2Proof
end

