-- ==== Sys2Proof/Config.lean ====
section
/-! DEFINITION. The elaboration parameters of `00_scope.md` R5 and the free values (draws) of R8. Which
configurations are accepted (R6) is `Config.wellFormed` of Machine/Elaboration.lean. -/

namespace Sys2Proof

/-- The parameters the block is elaborated with (R5). They are no registers: the machine carries them
unchanged in `State.cfg` (assumption log 1). `TICK_W` and `CMD_W` are fixed, so they are the widths of
`State.tcnt` and `Word`; the physical parameters of R5 are read by no rule (log 13). -/
structure Config where
  /-- `E`, the ticks of one bit period. -/
  e : Nat
  /-- `L_ZERO`, the LOW length of a ZERO bit, in ticks. -/
  lZero : Nat
  /-- `L_ONE`, the LOW length of a ONE bit, in ticks. -/
  lOne : Nat
  /-- `L_MARKER`, the LOW length of a MARKER bit, in ticks. -/
  lMarker : Nat
  /-- `DUT1_SIGN`, whose default the spec gives as `NEG`. -/
  dut1Sign : Dut1Sign := .neg
  /-- `LEAP_Y00`, whose default the spec gives as `false`. -/
  leapY00 : Bool := false
deriving DecidableEq, Repr

namespace Config

/-- The nominal configuration `NC` of R6. -/
def nominal : Config := { e := 60000, lZero := 12000, lOne := 30000, lMarker := 48000 }

/-- The test configuration `TC` of R6. -/
def test : Config := { e := 10, lZero := 2, lOne := 5, lMarker := 8 }

/-! The draws of R8. Each takes the number of the draw (`State.drawNo`, which only grows), so that every
event that draws gets values of its own; nothing says what they are (assumption log 4). -/

/-- What a read of `MIN` gives while `UNDEF = 1` (R25). -/
opaque drawMin : Nat → BitVec 6
/-- What a read of `HOUR` gives while `UNDEF = 1` (R25). -/
opaque drawHour : Nat → BitVec 5
/-- What a read of `DAY` gives while `UNDEF = 1` (R25). -/
opaque drawDay : Nat → BitVec 5
/-- What a read of `MON` gives while `UNDEF = 1` (R25). -/
opaque drawMon : Nat → BitVec 4
/-- What a read of `YEAR` gives while `UNDEF = 1` (R25). -/
opaque drawYear : Nat → BitVec 7
/-- What a read of `DOY` gives while `UNDEF = 1` (R25). -/
opaque drawDoy : Nat → BitVec 9
/-- What a read of `LEAP` gives while `UNDEF = 1` (R25). -/
opaque drawLeap : Nat → Bool
/-- The undefined frame content of R172: bit `i` set means position `i` is drawn ONE, clear means ZERO. -/
opaque drawFrame : Nat → BitVec 60

end Config

end Sys2Proof
end

