-- ==== Sys2Proof/Machine/Elaboration.lean ====
section
/-! DEFINITION. Which configurations a model accepts (`00_scope.md` R6), and the low-duration table
(`41_bit_scheduler.md` R120). -/

namespace Sys2Proof

/-- `LowDur` (R120): the ticks a bit of kind `k` spends LOW. -/
def Config.lowDur (c : Config) : BitKind → Nat
  | .zero => c.lZero
  | .one => c.lOne
  | .marker => c.lMarker

/-- CW1 of R6 for one low-duration: `1 <= L < E`. -/
def Config.strictlyInside (c : Config) (l : Nat) : Bool := decide (1 ≤ l) && decide (l < c.e)

/-- `|a - b| <= d` on naturals, for CW3 of R6. -/
def withinTicks (a b d : Nat) : Bool := decide (a ≤ b + d) && decide (b ≤ a + d)

/-- The checks CW1, CW2 and CW3 of R6; any other configuration is refused before any step (R4, R205). -/
def Config.wellFormed (c : Config) : Bool :=
  c.strictlyInside c.lZero && c.strictlyInside c.lOne && c.strictlyInside c.lMarker
    && decide (c.e ≤ 65535)
    && withinTicks (5 * c.lZero) c.e 5 && withinTicks (2 * c.lOne) c.e 2
    && withinTicks (5 * c.lMarker) (4 * c.e) 5

end Sys2Proof
end

