-- ==== Sys2Proof/Syntax.lean ====
section
/-! DEFINITION. The instructions: one constructor per row of `spec/opcode_table.json`, eleven command words
(`30_encoding.md` R71) and the two events TICK and RESET (R79). -/

namespace Sys2Proof

/-- A command or an event of the block. Operand fields have the widths of R73 to R75. -/
inductive Instr where
  /-- NOP (R101), format N. -/
  | nop
  /-- SET_TIME (R140), format S: minute, hour, day, month, 2-digit year, DST code. -/
  | setTime (mi : BitVec 6) (hr : BitVec 5) (dy : BitVec 5) (mo : BitVec 4) (yr : BitVec 7) (ds : BitVec 2)
  /-- ADVANCE (R141), format A: hours `AH`, minutes `AM`. -/
  | advance (ah : BitVec 8) (am : BitVec 8)
  /-- START (R102), format N. -/
  | start
  /-- STOP (R103), format N. -/
  | stop
  /-- RESUME (R104), format N. -/
  | resume
  /-- IS_ACTIVE (R105), format R, `SEL = 000`. -/
  | isActive
  /-- GET_TIME (R142), format R, `SEL = 001`. -/
  | getTime
  /-- GET_DOY (R143), format R, `SEL = 010`. -/
  | getDoy
  /-- BITKIND_AT (R144), format R, `SEL = 011`: the frame index `IDX`, legal up to 59. -/
  | bitkindAt (idx : BitVec 6)
  /-- GET_TIMER (R125), format R, `SEL = 100`. -/
  | getTimer
  /-- TICK (R121), an event. -/
  | tick
  /-- RESET (R220), an event. -/
  | reset
deriving DecidableEq, Repr

/-- The causes of `CommandError` (R201). -/
inductive Cause where
  /-- RESERVED_OPCODE, code 1. -/
  | reservedOpcode
  /-- RESERVED_BITS, code 2. -/
  | reservedBits
  /-- RESERVED_SELECTOR, code 3. -/
  | reservedSelector
  /-- INDEX_RANGE, code 4. -/
  | indexRange
deriving DecidableEq, Repr

end Sys2Proof
end

