-- ==== Sys2Proof/WellFormed.lean ====
section
/-! DEFINITION. Which terms of `Instr` are legal commands or events. The operand widths are in the types, so
the one check left is the index range of `30_encoding.md` R75. -/

namespace Sys2Proof

/-- A legal command or an event (R75, R77): BITKIND_AT's index is at most 59. Operands of SET_TIME out of
their calendar ranges are legal encodings (R73). -/
def Instr.wellFormed : Instr → Bool
  | .bitkindAt idx => decide (idx.toNat < 60)
  | .nop => true
  | .setTime _ _ _ _ _ _ => true
  | .advance _ _ => true
  | .start => true
  | .stop => true
  | .resume => true
  | .isActive => true
  | .getTime => true
  | .getDoy => true
  | .getTimer => true
  | .tick => true
  | .reset => true

end Sys2Proof
end

