-- ==== Sys2Proof/Decode.lean ====
section
/-! DEFINITION. Decoding of command words, total (`30_encoding.md` R77), and the encoder (R83). -/

namespace Sys2Proof

/-- What a 32-bit word is: exactly one legal command, or illegal with exactly one cause (R77). -/
inductive Decoded where
  | command (i : Instr)
  | illegal (cause : Cause)
deriving DecidableEq, Repr

/-- Format R (R75): the READ commands by selector, with the checks in the order R77 writes them. -/
def decodeRead (sel : BitVec 3) (reserved : BitVec 20) (idx : BitVec 6) : Decoded :=
  if 5 ≤ sel.toNat then .illegal .reservedSelector
  else if reserved ≠ 0 then .illegal .reservedBits
  else if sel ≠ 3 ∧ idx ≠ 0 then .illegal .reservedBits
  else if sel = 3 ∧ 60 ≤ idx.toNat then .illegal .indexRange
  else if sel = 0 then .command .isActive
  else if sel = 1 then .command .getTime
  else if sel = 2 then .command .getDoy
  else if sel = 3 then .command (.bitkindAt idx)
  else .command .getTimer

/-- Formats N, S and A (R72 to R74) of an operation other than 6 and 7, once the reserved bits are checked. -/
def decodeOperation (op : BitVec 3) (w : Word) : Decoded :=
  if op = 0 then .command .nop
  else if op = 1 then
    .command (.setTime (w.extractLsb' 23 6) (w.extractLsb' 18 5) (w.extractLsb' 13 5)
      (w.extractLsb' 9 4) (w.extractLsb' 2 7) (w.extractLsb' 0 2))
  else if op = 2 then .command (.advance (w.extractLsb' 8 8) (w.extractLsb' 0 8))
  else if op = 3 then .command .start
  else if op = 4 then .command .stop
  else .command .resume

/-- `Decode(w)` of R77, the checks in the order written, so that a word with several faults gets the first
cause (R202). Reserved encodings are illegal (R78). -/
def decode (w : Word) : Decoded :=
  let op : BitVec 3 := w.extractLsb' 29 3
  if op = 7 then .illegal .reservedOpcode
  else if (op = 0 ∨ op = 3 ∨ op = 4 ∨ op = 5) ∧ w.extractLsb' 0 29 ≠ 0 then .illegal .reservedBits
  else if op = 2 ∧ w.extractLsb' 16 13 ≠ 0 then .illegal .reservedBits
  else if op = 6 then decodeRead (w.extractLsb' 26 3) (w.extractLsb' 6 20) (w.extractLsb' 0 6)
  else decodeOperation op w

/-- The host's reader of a row of the opcode table: every row with a word has 32 bits (R70). -/
def decodeTableWord (nbits w : Nat) : Option Instr :=
  if 32 < nbits then none
  else
    match decode (BitVec.ofNat 32 (w % 2 ^ nbits)) with
    | .command i => some i
    | .illegal _ => none

/-- The encoding formula of R83. The events TICK and RESET are no command words (R79). -/
def encode : Instr → Option Word
  | .nop => some 0x00000000#32
  | .setTime mi hr dy mo yr ds =>
    some (0x20000000#32 ||| mi.setWidth 32 <<< 23 ||| hr.setWidth 32 <<< 18 ||| dy.setWidth 32 <<< 13
      ||| mo.setWidth 32 <<< 9 ||| yr.setWidth 32 <<< 2 ||| ds.setWidth 32)
  | .advance ah am => some (0x40000000#32 ||| ah.setWidth 32 <<< 8 ||| am.setWidth 32)
  | .start => some 0x60000000#32
  | .stop => some 0x80000000#32
  | .resume => some 0xA0000000#32
  | .isActive => some 0xC0000000#32
  | .getTime => some 0xC4000000#32
  | .getDoy => some 0xC8000000#32
  | .bitkindAt idx => some (0xCC000000#32 ||| idx.setWidth 32)
  | .getTimer => some 0xD0000000#32
  | .tick => none
  | .reset => none

end Sys2Proof
end

