-- ==== Sys2Proof/Machine/Calendar.lean ====
section
/-! DEFINITION. The calendar registers (`10_state.md` R21 to R24) and the calendar arithmetic of
`44_calendar.md` R180 to R185. Sums are made in `Nat` and narrowed to the register at the end, since
`DAY + 1` may be 32 and a 5-bit register cannot hold it. -/

namespace Sys2Proof.Machine

/-- The calendar registers of R20: `MIN`, `HOUR`, `DAY`, `MON`, `YEAR`, the derived `DOY` and `LEAP`, the
`DST` code and the carried flag `LSW`. -/
structure Calendar where
  min : BitVec 6
  hour : BitVec 5
  day : BitVec 5
  mon : BitVec 4
  year : BitVec 7
  doy : BitVec 9
  leap : Bool
  dst : BitVec 2
  lsw : Bool
deriving DecidableEq, Repr

/-- `IsLeap(y)` of R180, with the parameter `LEAP_Y00`. -/
def isLeap (leapY00 : Bool) (y : Nat) : Bool := y % 4 == 0 && (y != 0 || leapY00)

/-- `MonthLen(m, leap)` of R181, for `m` in 1..12; other arguments name no month (assumption log 8). -/
def monthLen (m : Nat) (leap : Bool) : Nat :=
  match m with
  | 1 => 31
  | 2 => if leap then 29 else 28
  | 3 => 31
  | 4 => 30
  | 5 => 31
  | 6 => 30
  | 7 => 31
  | 8 => 31
  | 9 => 30
  | 10 => 31
  | 11 => 30
  | 12 => 31
  | _ => 0

/-- `CUM[m]` of R182, the days before month `m` in a common year; other arguments name no month (log 8). -/
def daysBefore (m : Nat) : Nat :=
  match m with
  | 1 => 0
  | 2 => 31
  | 3 => 59
  | 4 => 90
  | 5 => 120
  | 6 => 151
  | 7 => 181
  | 8 => 212
  | 9 => 243
  | 10 => 273
  | 11 => 304
  | 12 => 334
  | _ => 0

/-- `Doy(d, m, leap)` of R182. -/
def dayOfYear (d m : Nat) (leap : Bool) : Nat := daysBefore m + d + if leap && decide (2 < m) then 1 else 0

/-- `Legal(mi, hr, dy, mo, yr)` of R183. -/
def legalTime (leapY00 : Bool) (mi hr dy mo yr : Nat) : Bool :=
  decide (mi ≤ 59) && decide (hr ≤ 23) && decide (1 ≤ mo) && decide (mo ≤ 12) && decide (yr ≤ 99)
    && decide (1 ≤ dy) && decide (dy ≤ monthLen mo (isLeap leapY00 yr))

namespace Calendar

/-- The year step of R184: 99 rolls to 0, and `LEAP` follows the new year. -/
def nextYear (leapY00 : Bool) (c : Calendar) : Calendar :=
  let y := if c.year.toNat + 1 = 100 then 0 else c.year.toNat + 1
  { c with year := BitVec.ofNat 7 y, leap := isLeap leapY00 y }

/-- The month step of R184. -/
def nextMonth (leapY00 : Bool) (c : Calendar) : Calendar :=
  if c.mon.toNat + 1 = 13 then { c with mon := 1 }.nextYear leapY00
  else { c with mon := BitVec.ofNat 4 (c.mon.toNat + 1) }

/-- The day step of R184. -/
def nextDay (leapY00 : Bool) (c : Calendar) : Calendar :=
  if monthLen c.mon.toNat c.leap < c.day.toNat + 1 then { c with day := 1 }.nextMonth leapY00
  else { c with day := BitVec.ofNat 5 (c.day.toNat + 1) }

/-- The hour step of R184. -/
def nextHour (leapY00 : Bool) (c : Calendar) : Calendar :=
  if c.hour.toNat + 1 = 24 then { c with hour := 0 }.nextDay leapY00
  else { c with hour := BitVec.ofNat 5 (c.hour.toNat + 1) }

/-- The minute step of R184. -/
def nextMinute (leapY00 : Bool) (c : Calendar) : Calendar :=
  if c.min.toNat + 1 = 60 then { c with min := 0 }.nextHour leapY00
  else { c with min := BitVec.ofNat 6 (c.min.toNat + 1) }

/-- `DOY <- Doy(DAY, MON, LEAP)`, the last calendar line of R184. -/
def deriveDoy (c : Calendar) : Calendar :=
  { c with doy := BitVec.ofNat 9 (dayOfYear c.day.toNat c.mon.toNat c.leap) }

/-- `LEAP <- IsLeap(YEAR)` and then `DOY`, as SET_TIME derives them (R140, R22). -/
def deriveLeapDoy (leapY00 : Bool) (c : Calendar) : Calendar :=
  { c with leap := isLeap leapY00 c.year.toNat }.deriveDoy

/-- The calendar part of `AdvanceOneMinute()` with `UNDEF = 0` (R184); `DST` and `LSW` do not change (R187). -/
def advanceOneMinute (leapY00 : Bool) (c : Calendar) : Calendar := (c.nextMinute leapY00).deriveDoy

/-- `AdvanceN(n)` (R185): `AdvanceOneMinute` `n` times in succession. -/
def advanceN (leapY00 : Bool) : Nat → Calendar → Calendar
  | 0, c => c
  | n + 1, c => advanceN leapY00 n (c.advanceOneMinute leapY00)

/-- The operands of SET_TIME stored as given, whatever their values (R37, R140); `LEAP`, `DOY` and `LSW` are
no operands. -/
def store (c : Calendar) (mi : BitVec 6) (hr dy : BitVec 5) (mo : BitVec 4) (yr : BitVec 7)
    (ds : BitVec 2) : Calendar :=
  { c with min := mi, hour := hr, day := dy, mon := mo, year := yr, dst := ds }

/-- The reset calendar of R38: 00:00 on 1 January of year 00. -/
def atReset (leapY00 : Bool) : Calendar :=
  { min := 0, hour := 0, day := 1, mon := 1, year := 0, doy := 1, leap := isLeap leapY00 0, dst := 0,
    lsw := false }

end Calendar

end Sys2Proof.Machine
end

