-- ==== Sys2Proof/Machine/Frame.lean ====
section
/-! DEFINITION. The 60-position frame: markers, weight tables, the greedy decomposition and `Encode`
(`43_field_derivation.md` R160 to R172). -/

namespace Sys2Proof.Machine

/-- `FRAME[0..59]` of `10_state.md` R26; window `k` is positions `10k` to `10k+9`. -/
abbrev Frame := Vector BitKind 60

/-- `MSET` of R160. -/
def markerSet : List Nat := [0, 9, 19, 29, 39, 49, 59]

/-- The (position, weight) table of the MINUTE field (R163). -/
def minuteTable : List (Nat × Nat) := [(1, 40), (2, 20), (3, 10), (5, 8), (6, 4), (7, 2), (8, 1)]

/-- The (position, weight) table of the HOUR field (R164). -/
def hourTable : List (Nat × Nat) := [(12, 20), (13, 10), (15, 8), (16, 4), (17, 2), (18, 1)]

/-- The (position, weight) table of the DAY-OF-YEAR field (R165). -/
def doyTable : List (Nat × Nat) :=
  [(22, 200), (23, 100), (25, 80), (26, 40), (27, 20), (28, 10), (30, 8), (31, 4), (32, 2), (33, 1)]

/-- The (position, weight) table of the YEAR field (R166). -/
def yearTable : List (Nat × Nat) :=
  [(45, 80), (46, 40), (47, 20), (48, 10), (50, 8), (51, 4), (52, 2), (53, 1)]

/-- A one-bit value as a data kind. -/
def dataKind (b : Bool) : BitKind := if b then .one else .zero

/-- `Greedy(v, T)` of R162: the kinds of the table's positions; the remainder is discarded. -/
def greedy : Nat → List (Nat × Nat) → List (Nat × BitKind)
  | _, [] => []
  | r, (p, wt) :: t =>
    if wt ≤ r then (p, .one) :: greedy (r - wt) t else (p, .zero) :: greedy r t

/-- The DUT1 field (R167): the sign positions by `DUT1_SIGN`, the magnitude `Greedy(0, ...)`. -/
def dut1Bits (sign : Dut1Sign) : List (Nat × BitKind) :=
  match sign with
  | .neg => [(36, .zero), (37, .one), (38, .zero), (40, .zero), (41, .zero), (42, .zero), (43, .zero)]
  | .pos => [(36, .one), (37, .zero), (38, .one), (40, .zero), (41, .zero), (42, .zero), (43, .zero)]

/-- The MISC field (R168): LYI, LSW and the two digits of the DST code, bit 1 first. -/
def miscBits (c : Calendar) : List (Nat × BitKind) :=
  [(55, dataKind c.leap), (56, dataKind c.lsw), (57, dataKind (c.dst.getLsbD 1)),
    (58, dataKind (c.dst.getLsbD 0))]

/-- Every position `Encode` assigns before the markers, with its kind (R170). -/
def fieldBits (c : Calendar) (sign : Dut1Sign) : List (Nat × BitKind) :=
  greedy c.min.toNat minuteTable ++ greedy c.hour.toNat hourTable ++ greedy c.doy.toNat doyTable
    ++ greedy c.year.toNat yearTable ++ dut1Bits sign ++ miscBits c

/-- `Encode(c, s)[i]` (R170): the marker where R160 puts one, else the assigned kind, else ZERO. -/
def encodeAt (c : Calendar) (sign : Dut1Sign) (i : Nat) : BitKind :=
  if i ∈ markerSet then .marker else ((fieldBits c sign).lookup i).getD .zero

/-- `Encode(c, s)` (R170). -/
def encodeFrame (c : Calendar) (sign : Dut1Sign) : Frame := Vector.ofFn fun i => encodeAt c sign i.val

/-- Undefined frame content (R172): MARKER at the positions of MSET, at every other the kind drawn for it. -/
def drawnFrame (draws : BitVec 60) : Frame :=
  Vector.ofFn fun i => if i.val ∈ markerSet then .marker else dataKind (draws.getLsbD i.val)

end Sys2Proof.Machine
end

