-- ==== Sys2Proof/Machine/State.lean ====
section
/-! DEFINITION. The state of the block (`10_state.md` R20), the reasons a step can stop, and the state after
reset (R38). -/

namespace Sys2Proof.Machine

/-- The input ports in one `clk` cycle (R34): `rst`, `tick`, and the word on `cmd` when `cmd_valid = 1`. -/
structure PortSample where
  rst : Bool := false
  tick : Bool := false
  cmd : Option Word := none
deriving DecidableEq, Repr

/-- The block's registers (R20), the parameters it was elaborated with, and the model's own `drawNo` and
`inputs`. -/
structure State where
  /-- The elaboration parameters of `00_scope.md` R5: no event writes them (log 1). -/
  cfg : Config
  /-- `MIN`, `HOUR`, `DAY`, `MON`, `YEAR`, `DOY`, `LEAP`, `DST`, `LSW` (R21 to R24). -/
  cal : Calendar
  /-- `UNDEF`, the ghost flag of R25. -/
  undef : Bool
  /-- `FRAME[0..59]` (R26). -/
  frame : Frame
  /-- `TCNT` (R27). -/
  tcnt : BitVec 16
  /-- `PHASE` (R28). -/
  phase : Phase
  /-- `POS` (R29), which never holds 60 to 63. -/
  pos : Fin 60
  /-- `CURK` (R30). -/
  curk : BitKind
  /-- `ACTIVE` (R31). -/
  active : Bool
  /-- `RSP_DATA` (R32). -/
  rspData : Word
  /-- `RSP_ERR` (R32). -/
  rspErr : Bool
  /-- The number of the next draw (`00_scope.md` R8, log 4): the model's own. -/
  drawNo : Nat
  /-- What the input ports will carry, one sample a `clk` cycle, the next first (R34, log 2): the model's
  own. -/
  inputs : List PortSample
deriving DecidableEq, Repr

/-- The block has no fault, trap or halt state (`00_scope.md` R4, `60_exceptions.md` R200), so there is no
fault to name: nothing raises one (log 16). -/
inductive Fault where
deriving DecidableEq, Repr

/-- The reasons a step is refused. -/
inductive Refusal where
  /-- An arm of `exec` without a meaning; no arm of this model raises it. Safe: the step stops. -/
  | notModelled (mnemonic : String)
  /-- `step` raises it before any event of a block whose configuration fails R6 (R4, R205). Safe: the spec
  refuses the same configurations before any step. -/
  | illFormedConfiguration
deriving DecidableEq, Repr

/-- The reset values of R38 for a block elaborated with `c`, no input waiting. -/
def State.resetFor (c : Config) : State :=
  { cfg := c
    cal := Calendar.atReset c.leapY00
    undef := false
    frame := encodeFrame (Calendar.atReset c.leapY00) c.dut1Sign
    tcnt := 0
    phase := .low
    pos := 0
    curk := .marker
    active := false
    rspData := 0
    rspErr := false
    drawNo := 0
    inputs := [] }

/-- The machine right after reset, elaborated with the nominal configuration (log 1). -/
def State.reset : State := State.resetFor Config.nominal

end Sys2Proof.Machine
end

