-- ==== Sys2Proof/Machine/Operands.lean ====
section
/-! DEFINITION. The codes of the value sets (`00_scope.md` R9, `60_exceptions.md` R201) and the layouts of the
response words (`30_encoding.md` R80). Every field is zero-extended (R76). -/

namespace Sys2Proof

/-- The two-bit code of a bit kind (R9). -/
def BitKind.code : BitKind → BitVec 2
  | .zero => 0#2
  | .one => 1#2
  | .marker => 2#2

/-- The one-bit code of a phase (R9). -/
def Phase.code : Phase → BitVec 1
  | .low => 0#1
  | .high => 1#1

/-- The cause codes of R201. -/
def Cause.code : Cause → BitVec 4
  | .reservedOpcode => 1#4
  | .reservedBits => 2#4
  | .reservedSelector => 3#4
  | .indexRange => 4#4

namespace Machine

/-- A frame index operand in 0..59 as a position, none for 60..63 (R52, R75). -/
def framePosition (idx : BitVec 6) : Option (Fin 60) :=
  if h : idx.toNat < 60 then some ⟨idx.toNat, h⟩ else none

/-- IS_ACTIVE's response: `ACTIVE` in bit 0 (R105). -/
def activeWord (active : Bool) : Word := (BitVec.ofBool active).setWidth 32

/-- GET_TIME's response, the positions of the SET_TIME operands (R142). -/
def timeWord (min : BitVec 6) (hour day : BitVec 5) (mon : BitVec 4) (year : BitVec 7)
    (dst : BitVec 2) : Word :=
  min.setWidth 32 <<< 23 ||| hour.setWidth 32 <<< 18 ||| day.setWidth 32 <<< 13 ||| mon.setWidth 32 <<< 9
    ||| year.setWidth 32 <<< 2 ||| dst.setWidth 32

/-- GET_DOY's response: `DOY`, `LEAP`, `LSW` (R143). -/
def doyWord (doy : BitVec 9) (leap lsw : Bool) : Word :=
  (BitVec.ofBool lsw).setWidth 32 <<< 10 ||| (BitVec.ofBool leap).setWidth 32 <<< 9 ||| doy.setWidth 32

/-- BITKIND_AT's response (R144). -/
def kindWord (k : BitKind) : Word := k.code.setWidth 32

/-- GET_TIMER's response: `CURK`, `ACTIVE`, `PHASE`, `POS`, `TCNT` (R125). -/
def timerWord (curk : BitKind) (active : Bool) (phase : Phase) (pos : Fin 60) (tcnt : BitVec 16) : Word :=
  curk.code.setWidth 32 <<< 24 ||| (BitVec.ofBool active).setWidth 32 <<< 23
    ||| phase.code.setWidth 32 <<< 22 ||| BitVec.ofNat 32 pos.val <<< 16 ||| tcnt.setWidth 32

/-- An error response: the cause code in bits 3..0 (R77, R80). -/
def causeWord (c : Cause) : Word := c.code.setWidth 32

/-- The minutes an ADVANCE advances: `60 * AH + AM` (R141). -/
def advanceMinutes (ah am : BitVec 8) : Nat := 60 * ah.toNat + am.toNat

end Machine

end Sys2Proof
end

