-- ==== Sys2Proof/Machine/Flags.lean ====
section
/-! DEFINITION. How the block's flags come about (`00_scope.md` R11): `UNDEF` from the operands of SET_TIME,
`PHASE` and the bit boundary from the tick count, `RSP_ERR` from the response. The writes of the flags
themselves are in Machine/Ops.lean. -/

namespace Sys2Proof.Machine

/-- What a tick does (`41_bit_scheduler.md` R121). -/
inductive TickEffect where
  /-- `ACTIVE = 0`: the tick is ignored. -/
  | ignored
  /-- Step 2: the count reaches the low-duration, LOW to HIGH. -/
  | toHigh
  /-- Step 3: the count reaches `E`, end of the bit. -/
  | endOfBit
  /-- Otherwise the count goes up. -/
  | count
deriving DecidableEq, Repr

/-- The count after a tick, `t1` of R121, before it is stored. -/
def nextCount (tcnt : BitVec 16) : Nat := tcnt.toNat + 1

/-- Which branch of R121 a tick takes: step 2 is tested before step 3 (`90_conflicts.md` C4), and step 3
with `>=` (C7). -/
def tickEffect (c : Config) (active : Bool) (curk : BitKind) (tcnt : BitVec 16) : TickEffect :=
  if active = false then .ignored
  else if nextCount tcnt = c.lowDur curk then .toHigh
  else if c.e ≤ nextCount tcnt then .endOfBit
  else .count

/-- `UNDEF` after SET_TIME: 1 exactly when the operands are not `Legal` (R140, R183). -/
def undefAfterSet (c : Config) (mi : BitVec 6) (hr dy : BitVec 5) (mo : BitVec 4) (yr : BitVec 7) : Bool :=
  !legalTime c.leapY00 mi.toNat hr.toNat dy.toNat mo.toNat yr.toNat

/-- `(POS + 1) mod 60` (R121, R29). -/
def nextPosition (pos : Fin 60) : Fin 60 := ⟨(pos.val + 1) % 60, Nat.mod_lt _ (by decide)⟩

end Sys2Proof.Machine
end

