-- ==== Sys2Proof/Machine/Ops.lean ====
section
/-! DEFINITION. The operations the meanings share: responses and the error response, the start of a bit,
the re-derivation of the frame, the advances, the reads of the calendar, the input ports and the outputs. -/

namespace Sys2Proof.Machine

/-- The outputs of the block (R35), the observation of `00_scope.md` R10. -/
structure Outputs where
  dutySel : Phase
  carrierEn : Bool
  rspData : Word
  rspErr : Bool
deriving DecidableEq, Repr

/-- The events of `00_scope.md` R2. -/
inductive Event where
  | reset
  | tick
  | cmd (w : Word)
deriving DecidableEq, Repr

/-- The calendar registers as a read sees them. -/
structure TimeRead where
  min : BitVec 6
  hour : BitVec 5
  day : BitVec 5
  mon : BitVec 4
  year : BitVec 7
  doy : BitVec 9
  leap : Bool
deriving DecidableEq, Repr

/-- The events of one `clk` cycle in their order (R3): RESET alone if `rst`; else the command, then the
tick. -/
def PortSample.events (p : PortSample) : List Event :=
  if p.rst then [.reset]
  else (match p.cmd with
    | some w => [.cmd w]
    | none => []) ++ if p.tick then [.tick] else []

namespace State

/-- The outputs are direct copies of registers (R35). -/
def outputs (s : State) : Outputs :=
  { dutySel := s.phase, carrierEn := s.active, rspData := s.rspData, rspErr := s.rspErr }

/-- The response of a legal command: `RSP_DATA <- data`, `RSP_ERR <- 0` (R32). -/
def respond (data : Word) (s : State) : State := { s with rspData := data, rspErr := false }

/-- `raise CommandError(c)`: `RSP_DATA <- zext_32(c)`, `RSP_ERR <- 1` and nothing else (R77, R200). This is
what stands in the place of taking an exception: no state is saved and there is no return (R208). -/
def commandError (c : Cause) (s : State) : State := { s with rspData := causeWord c, rspErr := true }

/-- `ACTIVE <- b` (R31). -/
def setActive (b : Bool) (s : State) : State := { s with active := b }

/-- A bit of kind `k` begins: `TCNT <- 0`, `PHASE <- LOW`, `CURK <- k` (R30, R102, R121, R140). -/
def beginBit (k : BitKind) (s : State) : State := { s with tcnt := 0, phase := .low, curk := k }

/-- `POS <- p` (R29). -/
def setPos (p : Fin 60) (s : State) : State := { s with pos := p }

/-- The calendar and `UNDEF` written together (R22, R25). -/
def setCalendar (c : Calendar) (undef : Bool) (s : State) : State := { s with cal := c, undef := undef }

/-- `KindAt(i) = FRAME[i]` (R170). -/
def kindAt (i : Fin 60) (s : State) : BitKind := s.frame[i]

/-- `FRAME <- Encode(calendar, DUT1_SIGN)`: with `UNDEF = 0` computed from the calendar (R170); with
`UNDEF = 1` a fresh draw at every non-marker position (R172), which uses up one draw number. -/
def rederive (s : State) : State :=
  if s.undef then { s with frame := drawnFrame (Config.drawFrame s.drawNo), drawNo := s.drawNo + 1 }
  else { s with frame := encodeFrame s.cal s.cfg.dut1Sign }

/-- The calendar part of `AdvanceN(n)`: while `UNDEF = 1` it stays undefined (R184, R185). -/
def advanceCalendar (n : Nat) (s : State) : State :=
  if s.undef then s else s.setCalendar (s.cal.advanceN s.cfg.leapY00 n) false

/-- `AdvanceOneMinute()` of R184, with the frame re-derived. -/
def advanceOneMinute (s : State) : State := (s.advanceCalendar 1).rederive

/-- A read of the calendar registers: draws while `UNDEF = 1` (R25), the registers otherwise. -/
def readTime (s : State) : TimeRead :=
  if s.undef then
    { min := Config.drawMin s.drawNo, hour := Config.drawHour s.drawNo, day := Config.drawDay s.drawNo,
      mon := Config.drawMon s.drawNo, year := Config.drawYear s.drawNo, doy := Config.drawDoy s.drawNo,
      leap := Config.drawLeap s.drawNo }
  else
    { min := s.cal.min, hour := s.cal.hour, day := s.cal.day, mon := s.cal.mon, year := s.cal.year,
      doy := s.cal.doy, leap := s.cal.leap }

/-- The draw number a calendar read uses up (R8: each draw is chosen afresh). -/
def afterRead (s : State) : State := if s.undef then { s with drawNo := s.drawNo + 1 } else s

/-- The inputs still to come replaced by `l`. -/
def setInputs (l : List PortSample) (s : State) : State := { s with inputs := l }

/-- The next event on the input ports, and the state that has taken it: a cycle without event, and an input
list that is used up, give no event (log 2); of a cycle with a command and a tick the tick stays (R3). -/
def takeEvent (s : State) : Option Event × State :=
  match s.inputs with
  | [] => (none, s)
  | p :: rest =>
    match p.events with
    | [] => (none, s.setInputs rest)
    | [ev] => (some ev, s.setInputs rest)
    | ev :: _ => (some ev, s.setInputs ({ p with cmd := none } :: rest))

end State

end Sys2Proof.Machine
end

