-- ==== Sys2Proof/Machine/BitScheduler.lean ====
section
/-! DEFINITION. The bit scheduler: TICK and GET_TIMER (`41_bit_scheduler.md` R121, R125). -/

namespace Sys2Proof.Machine

/-- The end-of-bit branch of R121: `POS` advances, the wrap to 0 advances the calendar by one minute, and
the next bit begins with the kind its position now has. -/
def State.endBit (s : State) : State :=
  let t := if nextPosition s.pos = 0 then (s.setPos (nextPosition s.pos)).advanceOneMinute
    else s.setPos (nextPosition s.pos)
  t.beginBit (t.kindAt t.pos)

/-- The count stored in `TCNT` (R121). -/
def State.setTcnt (n : Nat) (s : State) : State := { s with tcnt := BitVec.ofNat 16 n }

/-- `PHASE <- p` (R28). -/
def State.setPhase (p : Phase) (s : State) : State := { s with phase := p }

/-- TICK (R121). -/
def execTick (s : State) : Host.Outcome State Fault Refusal :=
  .next (match tickEffect s.cfg s.active s.curk s.tcnt with
    | .ignored => s
    | .toHigh => (s.setPhase .high).setTcnt (nextCount s.tcnt)
    | .endOfBit => s.endBit
    | .count => s.setTcnt (nextCount s.tcnt))

/-- GET_TIMER (R125). -/
def execGetTimer (s : State) : Host.Outcome State Fault Refusal :=
  .next (s.respond (timerWord s.curk s.active s.phase s.pos s.tcnt))

end Sys2Proof.Machine
end

