-- ==== Sys2Proof/Machine/CarrierControl.lean ====
section
/-! DEFINITION. The carrier control commands (`40_carrier_control.md` R101 to R105). -/

namespace Sys2Proof.Machine

/-- NOP (R101). -/
def execNop (s : State) : Host.Outcome State Fault Refusal := .next (s.respond 0)

/-- START (R102): enable, and restart the bit at `POS` with the kind the frame now gives it. -/
def execStart (s : State) : Host.Outcome State Fault Refusal :=
  .next (((s.setActive true).beginBit (s.kindAt s.pos)).respond 0)

/-- STOP (R103): halt, keeping all state. -/
def execStop (s : State) : Host.Outcome State Fault Refusal := .next ((s.setActive false).respond 0)

/-- RESUME (R104): re-enable, continuing from the stopped phase. -/
def execResume (s : State) : Host.Outcome State Fault Refusal := .next ((s.setActive true).respond 0)

/-- IS_ACTIVE (R105). -/
def execIsActive (s : State) : Host.Outcome State Fault Refusal := .next (s.respond (activeWord s.active))

end Sys2Proof.Machine
end

