-- ==== Sys2Proof/Machine/EncoderCommands.lean ====
section
/-! DEFINITION. The encoder commands (`42_encoder_commands.md` R140 to R144). -/

namespace Sys2Proof.Machine

/-- The calendar SET_TIME leaves (R140): legal operands advanced by one minute, others stored as given with
`UNDEF = 1`. -/
def setTimeCalendar (mi : BitVec 6) (hr dy : BitVec 5) (mo : BitVec 4) (yr : BitVec 7) (ds : BitVec 2)
    (s : State) : State :=
  if undefAfterSet s.cfg mi hr dy mo yr then s.setCalendar (s.cal.store mi hr dy mo yr ds) true
  else
    s.setCalendar (((s.cal.store mi hr dy mo yr ds).deriveLeapDoy s.cfg.leapY00).advanceOneMinute
      s.cfg.leapY00) false

/-- SET_TIME (R140): set the calendar, re-derive the frame, realign the bit timer to position 0, a marker. -/
def execSetTime (mi : BitVec 6) (hr dy : BitVec 5) (mo : BitVec 4) (yr : BitVec 7) (ds : BitVec 2)
    (s : State) : Host.Outcome State Fault Refusal :=
  .next ((((setTimeCalendar mi hr dy mo yr ds s).rederive.setPos 0).beginBit .marker).respond 0)

/-- ADVANCE (R141). -/
def execAdvance (ah am : BitVec 8) (s : State) : Host.Outcome State Fault Refusal :=
  .next ((s.advanceCalendar (advanceMinutes ah am)).rederive.respond 0)

/-- GET_TIME (R142): while `UNDEF = 1` all fields but `DST` are draws. -/
def execGetTime (s : State) : Host.Outcome State Fault Refusal :=
  .next (s.afterRead.respond
    (timeWord s.readTime.min s.readTime.hour s.readTime.day s.readTime.mon s.readTime.year s.cal.dst))

/-- GET_DOY (R143): while `UNDEF = 1`, `DOY` and `LEAP` are draws. -/
def execGetDoy (s : State) : Host.Outcome State Fault Refusal :=
  .next (s.afterRead.respond (doyWord s.readTime.doy s.readTime.leap s.cal.lsw))

/-- BITKIND_AT (R144): `CommandError(4)` for an index out of range. -/
def execBitkindAt (idx : BitVec 6) (s : State) : Host.Outcome State Fault Refusal :=
  .next (match framePosition idx with
    | some i => s.respond (kindWord (s.kindAt i))
    | none => s.commandError .indexRange)

end Sys2Proof.Machine
end

