-- ==== Sys2Proof/Machine/ResetEvent.lean ====
section
/-! DEFINITION. The event RESET (`70_reset_and_hazards.md` R220). -/

namespace Sys2Proof.Machine

/-- RESET (R220): every state element gets its value of R38. The parameters are not touched; the inputs of
later cycles still come, and no draw is taken twice (log 2, log 4). -/
def execReset (s : State) : Host.Outcome State Fault Refusal :=
  .next { State.resetFor s.cfg with drawNo := s.drawNo, inputs := s.inputs }

end Sys2Proof.Machine
end

