-- ==== Sys2Proof/Machine/Dispatch.lean ====
section
/-! DEFINITION. The meaning of every instruction: one arm per constructor of `Instr`. -/

namespace Sys2Proof.Machine

def exec (i : Instr) (s : State) : Host.Outcome State Fault Refusal :=
  match i with
  | .nop => Sys2Proof.Machine.execNop s
  | .setTime mi hr dy mo yr ds => Sys2Proof.Machine.execSetTime mi hr dy mo yr ds s
  | .advance ah am => Sys2Proof.Machine.execAdvance ah am s
  | .start => Sys2Proof.Machine.execStart s
  | .stop => Sys2Proof.Machine.execStop s
  | .resume => Sys2Proof.Machine.execResume s
  | .isActive => Sys2Proof.Machine.execIsActive s
  | .getTime => Sys2Proof.Machine.execGetTime s
  | .getDoy => Sys2Proof.Machine.execGetDoy s
  | .bitkindAt idx => Sys2Proof.Machine.execBitkindAt idx s
  | .getTimer => Sys2Proof.Machine.execGetTimer s
  | .tick => Sys2Proof.Machine.execTick s
  | .reset => Sys2Proof.Machine.execReset s

end Sys2Proof.Machine
end

