-- ==== Sys2Proof/Machine/Events.lean ====
section
/-! DEFINITION. What one event does (`00_scope.md` R2): a command word is decoded and its command executed, or
it is illegal and answered by the error response (R77). -/

namespace Sys2Proof.Machine

/-- `CMD(w)`. -/
def runWord (w : Word) (s : State) : Host.Outcome State Fault Refusal :=
  match decode w with
  | .command i => exec i s
  | .illegal c => .next (s.commandError c)

/-- One event, or none: a cycle that presents nothing leaves the state as it is. -/
def runEvent (ev : Option Event) (s : State) : Host.Outcome State Fault Refusal :=
  match ev with
  | none => .next s
  | some .reset => exec .reset s
  | some .tick => exec .tick s
  | some (.cmd w) => runWord w s

/-- The port sample that presents one command word and nothing else. -/
def commandSample (w : Word) : PortSample := { cmd := some w }

/-- `s` with a command word presented in the very next cycle, before everything else that is to come. -/
def State.present (w : Word) (s : State) : State := s.setInputs (commandSample w :: s.inputs)

end Sys2Proof.Machine
end

