-- ==== Sys2Proof/Machine/Step.lean ====
section
/-! DEFINITION. One step of the machine: one event (`00_scope.md` R2, R4). -/

namespace Sys2Proof.Machine

/-- One event of the input ports, taken in the order of R3. An ill-formed configuration is refused before
any event (R4, R6). -/
def step (s : State) : Host.Outcome State Fault Refusal :=
  if s.cfg.wellFormed then runEvent s.takeEvent.1 s.takeEvent.2
  else .refused .illFormedConfiguration

/-- `s` with the table's word presented on `cmd` in the very next cycle (R70, log 2). -/
def State.withFetchWord (s : State) (nbits w : Nat) : State :=
  s.present (BitVec.ofNat 32 (w % 2 ^ nbits))

end Sys2Proof.Machine
end

