-- ==== Sys2Proof/Safety.lean ====
section
/-! DEFINITION. What claims speak of: the invariant of `10_state.md` R33, the observation of `00_scope.md` R10, and
runs. -/

namespace Sys2Proof.Machine

/-- The calendar clauses of R33, `LSW = 0` apart. -/
structure Calendar.Valid (leapY00 : Bool) (c : Calendar) : Prop where
  min_le : c.min.toNat ≤ 59
  hour_le : c.hour.toNat ≤ 23
  mon_pos : 1 ≤ c.mon.toNat
  mon_le : c.mon.toNat ≤ 12
  day_pos : 1 ≤ c.day.toNat
  day_le : c.day.toNat ≤ monthLen c.mon.toNat c.leap
  year_le : c.year.toNat ≤ 99
  leap_eq : c.leap = isLeap leapY00 c.year.toNat
  doy_eq : c.doy.toNat = dayOfYear c.day.toNat c.mon.toNat c.leap

/-- `MARKER` at exactly the positions of MSET (`43_field_derivation.md` R160). -/
def Frame.MarkersExact (f : Frame) : Prop := ∀ i : Fin 60, f[i] = BitKind.marker ↔ i.val ∈ markerSet

/-- The timer clauses of R33. -/
structure State.TimerOk (s : State) : Prop where
  tcnt_lt : s.tcnt.toNat < s.cfg.e
  phase_high : s.phase = .high → s.cfg.lowDur s.curk ≤ s.tcnt.toNat
  phase_low : s.phase = .low → s.tcnt.toNat < s.cfg.lowDur s.curk

/-- The invariant: the clauses of R33, with the frame clauses of R26 and R160 and the resident kind a marker
exactly at the marker positions. -/
structure State.Inv (s : State) : Prop where
  cfg_ok : s.cfg.wellFormed = true
  lsw_zero : s.cal.lsw = false
  calendar_valid : s.undef = false → s.cal.Valid s.cfg.leapY00
  frame_encodes : s.undef = false → s.frame = encodeFrame s.cal s.cfg.dut1Sign
  markers_exact : Frame.MarkersExact s.frame
  resident_marker : s.curk = .marker ↔ s.pos.val ∈ markerSet
  timer_ok : s.TimerOk

/-- `FRAME[i]` as a transmitted bit: 1 for ONE, else 0. -/
def Frame.bit (f : Frame) (i : Fin 60) : Nat := if f[i] = .one then 1 else 0

/-- The leap years among the years `0 .. y - 1` of the century (R180). -/
def leapsBefore (leapY00 : Bool) : Nat → Nat
  | 0 => 0
  | y + 1 => leapsBefore leapY00 y + (isLeap leapY00 y).toNat

/-- The days of the century before 1 January of year `y`. -/
def daysBeforeYear (leapY00 : Bool) (y : Nat) : Nat := 365 * y + leapsBefore leapY00 y

/-- The minutes from 00:00 on 1 January of year 00 to the calendar's time. -/
def Calendar.minuteOfCentury (leapY00 : Bool) (c : Calendar) : Nat :=
  1440 * (daysBeforeYear leapY00 c.year.toNat + (c.doy.toNat - 1)) + 60 * c.hour.toNat + c.min.toNat

/-- The minutes of the hundred years that two digits can name, after which the calendar wraps (R184). -/
def minutesPerCentury (leapY00 : Bool) : Nat := 1440 * daysBeforeYear leapY00 100

/-- A command without operands, of format N or R: its word is `w` alone, and every other word of the same
leading bits (`op` of `len` bits from `lo`) is illegal with the cause RESERVED_BITS (R72, R75, R77). -/
def CommandWithoutOperands (i : Instr) (w : Word) (lo len : Nat) : Prop :=
  (∀ v : Word, decode v = .command i ↔ v = w) ∧
  ∀ v : Word, v.extractLsb' lo len = w.extractLsb' lo len → v ≠ w → decode v = .illegal .reservedBits

/-- The outputs after each event of the first `n` steps (R10), up to a refusal; a step that takes no event adds
nothing. -/
def trace : Nat → State → List Outputs
  | 0, _ => []
  | n + 1, s =>
    match step s with
    | .next t =>
      match s.takeEvent.1 with
      | some _ => t.outputs :: trace n t
      | none => trace n t
    | .fault _ => []
    | .refused _ => []

/-- The port sample that presents one event in a cycle of its own (R34). -/
def Event.sample : Event → PortSample
  | .reset => { rst := true }
  | .tick => { tick := true }
  | .cmd w => commandSample w

/-- `s` at the start of the run RESET, `evs` of R10. -/
def State.startRun (evs : List Event) (s : State) : State := s.setInputs ((Event.reset :: evs).map Event.sample)

/-- What a claim may observe of the run RESET, `evs` (R10). -/
def observation (evs : List Event) (s : State) : List Outputs := trace (evs.length + 1) (s.startRun evs)

/-- `n` steps (the host's `Core.run`). -/
def run (n : Nat) (s : State) : Host.Outcome State Fault Refusal :=
  match n with
  | 0 => .next s
  | n + 1 =>
    match step s with
    | .next t => run n t
    | .fault r => .fault r
    | .refused r => .refused r

/-- `n` consecutive cycles that present a tick each. -/
def tickSamples (n : Nat) : List PortSample := List.replicate n { tick := true }

end Sys2Proof.Machine
end

