-- ==== Sys2Proof/Certificates/Slice0/Obligations.lean ====
section
/-! DEFINITION. The statements for the provers. Each docstring names the rule of `spec/` it formalises. -/

open Sys2Proof Sys2Proof.Machine

/-! ## Encoding -/

/-- R83, R77: decoding the word of any legal command gives the command back, with every operand. -/
def Obligations.DecodeOfEncodeIsTheCommand : Prop :=
  ∀ (i : Instr) (w : Word), i.wellFormed = true → encode i = some w → decode w = .command i

/-- R77, R83: a word that decodes to a command is that command's own word, and the command is legal: no two words
mean one command and no bit of a legal word is dropped. -/
def Obligations.LegalWordIsTheCommandsOwnWord : Prop :=
  ∀ (w : Word) (i : Instr), decode w = .command i → i.wellFormed = true ∧ encode i = some w

/-- R84: the match and mask of every row of the opcode table select exactly the words the decoder reads as that row's
command, and a word is illegal exactly when it matches none of the eleven rows. -/
def Obligations.MatchAndMaskSelectTheCommands : Prop :=
  ∀ w : Word,
    (w &&& 0xFFFFFFFF#32 = 0x00000000#32 ↔ decode w = .command .nop) ∧
    (w &&& 0xE0000000#32 = 0x20000000#32 ↔
      ∃ mi hr dy mo yr ds, decode w = .command (.setTime mi hr dy mo yr ds)) ∧
    (w &&& 0xFFFF0000#32 = 0x40000000#32 ↔ ∃ ah am, decode w = .command (.advance ah am)) ∧
    (w &&& 0xFFFFFFFF#32 = 0x60000000#32 ↔ decode w = .command .start) ∧
    (w &&& 0xFFFFFFFF#32 = 0x80000000#32 ↔ decode w = .command .stop) ∧
    (w &&& 0xFFFFFFFF#32 = 0xA0000000#32 ↔ decode w = .command .resume) ∧
    (w &&& 0xFFFFFFFF#32 = 0xC0000000#32 ↔ decode w = .command .isActive) ∧
    (w &&& 0xFFFFFFFF#32 = 0xC4000000#32 ↔ decode w = .command .getTime) ∧
    (w &&& 0xFFFFFFFF#32 = 0xC8000000#32 ↔ decode w = .command .getDoy) ∧
    ((w &&& 0xFFFFFFC0#32 = 0xCC000000#32 ∧ (w.extractLsb' 0 6).toNat ≤ 59) ↔
      ∃ idx, decode w = .command (.bitkindAt idx)) ∧
    (w &&& 0xFFFFFFFF#32 = 0xD0000000#32 ↔ decode w = .command .getTimer) ∧
    ((w &&& 0xFFFFFFFF#32 ≠ 0x00000000#32 ∧ w &&& 0xE0000000#32 ≠ 0x20000000#32 ∧
        w &&& 0xFFFF0000#32 ≠ 0x40000000#32 ∧ w &&& 0xFFFFFFFF#32 ≠ 0x60000000#32 ∧
        w &&& 0xFFFFFFFF#32 ≠ 0x80000000#32 ∧ w &&& 0xFFFFFFFF#32 ≠ 0xA0000000#32 ∧
        w &&& 0xFFFFFFFF#32 ≠ 0xC0000000#32 ∧ w &&& 0xFFFFFFFF#32 ≠ 0xC4000000#32 ∧
        w &&& 0xFFFFFFFF#32 ≠ 0xC8000000#32 ∧
        ¬ (w &&& 0xFFFFFFC0#32 = 0xCC000000#32 ∧ (w.extractLsb' 0 6).toNat ≤ 59) ∧
        w &&& 0xFFFFFFFF#32 ≠ 0xD0000000#32) ↔
      ∃ c, decode w = .illegal c)

/-- R202: with several faults in one word the first in the order of R77's checks is reported: reserved opcode, then
(formats N and A) reserved bits, then (READ) reserved selector, reserved bits, index range. -/
def Obligations.FirstFaultIsReported : Prop :=
  (∀ w : Word,
    (decode w = .illegal .reservedOpcode ↔ w.extractLsb' 29 3 = 7#3) ∧
    (decode w = .illegal .reservedSelector ↔
      w.extractLsb' 29 3 = 6#3 ∧ 5 ≤ (w.extractLsb' 26 3).toNat) ∧
    (decode w = .illegal .indexRange ↔
      w.extractLsb' 29 3 = 6#3 ∧ w.extractLsb' 26 3 = 3#3 ∧ w.extractLsb' 6 20 = 0#20 ∧
        60 ≤ (w.extractLsb' 0 6).toNat) ∧
    (decode w = .illegal .reservedBits ↔
      ((w.extractLsb' 29 3 = 0#3 ∨ w.extractLsb' 29 3 = 3#3 ∨ w.extractLsb' 29 3 = 4#3 ∨
          w.extractLsb' 29 3 = 5#3) ∧ w.extractLsb' 0 29 ≠ 0#29) ∨
      (w.extractLsb' 29 3 = 2#3 ∧ w.extractLsb' 16 13 ≠ 0#13) ∨
      (w.extractLsb' 29 3 = 6#3 ∧ (w.extractLsb' 26 3).toNat < 5 ∧
        (w.extractLsb' 6 20 ≠ 0#20 ∨ (w.extractLsb' 26 3 ≠ 3#3 ∧ w.extractLsb' 0 6 ≠ 0#6))))) ∧
  decode 0xD4000001#32 = .illegal .reservedSelector

/-- R73: every word with OP 001 is a SET_TIME whose operands are the word's fields; none is illegal, whatever the
operands' values. -/
def Obligations.EverySetTimeWordIsLegal : Prop :=
  ∀ w : Word, w.extractLsb' 29 3 = 1#3 →
    decode w = .command (.setTime (w.extractLsb' 23 6) (w.extractLsb' 18 5) (w.extractLsb' 13 5)
      (w.extractLsb' 9 4) (w.extractLsb' 2 7) (w.extractLsb' 0 2))

/-- Words written out bit by bit from R72 to R75 decode to the commands they stand for. -/
def Obligations.SampleWordsDecode : Prop :=
  decode 0b000_00000000000000000000000000000#32 = .command .nop ∧
  decode 0b001_111010_10111_11111_1100_1100011_00#32 = .command (.setTime 58 23 31 12 99 0) ∧
  decode 0b010_0000000000000_00011000_00000001#32 = .command (.advance 24 1) ∧
  decode 0b100_00000000000000000000000000000#32 = .command .stop ∧
  decode 0b110_011_00000000000000000000_111011#32 = .command (.bitkindAt 59) ∧
  decode 0b110_011_00000000000000000000_111100#32 = .illegal .indexRange ∧
  decode 0b110_100_00000000000000000000_000000#32 = .command .getTimer ∧
  decode 0b111_00000000000000000000000000000#32 = .illegal .reservedOpcode

/-- R79: the events TICK and RESET have no command word. -/
def Obligations.EventsHaveNoCommandWord : Prop :=
  encode .tick = none ∧ encode .reset = none ∧
  ∀ w : Word, decode w ≠ .command .tick ∧ decode w ≠ .command .reset

/-! ## Configuration and the step -/

/-- R6: the accepted configurations are those of CW1, CW2 and CW3, every other is refused before any step, and the
configurations NC and TC are accepted. -/
def Obligations.ConfigurationChecks : Prop :=
  (∀ s : State,
    let c := s.cfg
    let accepted : Prop :=
      (1 ≤ c.lZero ∧ c.lZero < c.e) ∧ (1 ≤ c.lOne ∧ c.lOne < c.e) ∧ (1 ≤ c.lMarker ∧ c.lMarker < c.e) ∧
      c.e ≤ 65535 ∧
      |5 * (c.lZero : Int) - c.e| ≤ 5 ∧ |2 * (c.lOne : Int) - c.e| ≤ 2 ∧ |5 * (c.lMarker : Int) - 4 * c.e| ≤ 5
    (c.wellFormed = true ↔ accepted) ∧ (¬ accepted → step s = .refused .illFormedConfiguration)) ∧
  Config.wellFormed { e := 60000, lZero := 12000, lOne := 30000, lMarker := 48000 } = true ∧
  Config.wellFormed { e := 10, lZero := 2, lOne := 5, lMarker := 8 } = true

/-- R4: a block whose configuration is accepted has a next state whatever its state and its inputs; a step of any
other block is refused. -/
def Obligations.EveryStepHasASuccessor : Prop :=
  ∀ s : State,
    (s.cfg.wellFormed = true → ∃ t, step s = .next t) ∧
    (s.cfg.wellFormed = false → step s = .refused .illFormedConfiguration)

/-- A step runs the decoded command: when the next cycle presents a word that decodes to `i`, the step is `exec i` on
the state that has taken the word; a tick of the same cycle stays to come (R2, R3). -/
def Obligations.StepExecutesThePresentedCommand : Prop :=
  ∀ (s : State) (w : Word) (i : Instr) (rest : List PortSample), s.cfg.wellFormed = true →
    decode w = .command i →
    (s.inputs = { cmd := some w } :: rest → step s = exec i { s with inputs := rest }) ∧
    (s.inputs = { tick := true, cmd := some w } :: rest →
      step s = exec i { s with inputs := { tick := true } :: rest })

/-- The events and the cycles without one: a tick alone runs TICK, `rst` runs RESET, a cycle that presents nothing
and an input list that is used up change nothing (the last two are the model's choice, assumption log 2). -/
def Obligations.StepTakesTheEventsOfTheCycle : Prop :=
  ∀ (s : State) (rest : List PortSample) (tick : Bool) (cmd : Option Word), s.cfg.wellFormed = true →
    (s.inputs = { tick := true } :: rest → step s = exec .tick { s with inputs := rest }) ∧
    (s.inputs = { rst := true, tick := tick, cmd := cmd } :: rest →
      step s = exec .reset { s with inputs := rest }) ∧
    (s.inputs = {} :: rest → step s = .next { s with inputs := rest }) ∧
    (s.inputs = [] → step s = .next s)

/-- R77, R200, R201: an illegal word writes its cause code and `RSP_ERR = 1`, changes nothing else, and the block goes
on; a tick of the same cycle still comes. -/
def Obligations.IllegalWordOnlyAnswersItsCause : Prop :=
  ∀ (s : State) (w : Word) (c : Cause) (rest : List PortSample), s.cfg.wellFormed = true →
    decode w = .illegal c →
    let code : Word := match c with
      | .reservedOpcode => 1#32
      | .reservedBits => 2#32
      | .reservedSelector => 3#32
      | .indexRange => 4#32
    (s.inputs = { cmd := some w } :: rest →
      step s = .next { s with rspData := code, rspErr := true, inputs := rest }) ∧
    (s.inputs = { tick := true, cmd := some w } :: rest →
      step s = .next { s with rspData := code, rspErr := true, inputs := { tick := true } :: rest })

/-- R3: with `rst` the cycle is RESET alone and any tick or command of it is discarded; otherwise a command and a tick
of one cycle are the command followed by the tick, and the tick is neither lost nor applied first. -/
def Obligations.SameCycleInputsAreSerialised : Prop :=
  ∀ (s : State) (rest : List PortSample), s.cfg.wellFormed = true →
    (∀ tick cmd, s.inputs = { rst := true, tick := tick, cmd := cmd } :: rest →
      step s = exec .reset { s with inputs := rest }) ∧
    (∀ w, s.inputs = { tick := true, cmd := some w } :: rest →
      ∃ t u, runWord w { s with inputs := rest } = .next t ∧ exec .tick t = .next u ∧ run 2 s = .next u)

/-- R227: with a command and a tick in one cycle, a GET_TIMER reports the state before the tick, a STOP makes the tick
ignored, a RESUME makes it counted, a START or (while active) a SET_TIME makes it the first tick of the restarted
bit. -/
def Obligations.SameCycleConsequences : Prop :=
  ∀ (s : State) (rest : List PortSample), s.cfg.wellFormed = true →
    (s.inputs = { tick := true, cmd := some 0xD0000000#32 } :: rest →
      ∃ t, run 2 s = .next t ∧ t.rspData.extractLsb' 0 16 = s.tcnt ∧ t.rspErr = false) ∧
    (s.inputs = { tick := true, cmd := some 0x80000000#32 } :: rest →
      run 2 s = .next { s with active := false, rspData := 0, rspErr := false, inputs := rest }) ∧
    (s.inputs = { tick := true, cmd := some 0xA0000000#32 } :: rest →
      ∃ t, exec .tick { s with active := true, inputs := rest } = .next t ∧
        run 2 s = .next { t with rspData := 0, rspErr := false }) ∧
    (s.inputs = { tick := true, cmd := some 0x60000000#32 } :: rest →
      ∃ t, run 2 s = .next t ∧ t.tcnt = 1#16 ∧ t.pos = s.pos ∧ t.active = true ∧ t.inputs = rest) ∧
    (∀ w : Word, w.extractLsb' 29 3 = 1#3 → s.active = true →
      s.inputs = { tick := true, cmd := some w } :: rest →
      ∃ t, run 2 s = .next t ∧ t.tcnt = 1#16 ∧ t.pos = 0 ∧ t.curk = .marker ∧ t.inputs = rest)

/-! ## Carrier control -/

/-- R101: NOP writes only the response registers; a tick of the same cycle is applied as usual. -/
def Obligations.NopWritesOnlyTheResponse : Prop :=
  CommandWithoutOperands .nop 0x00000000#32 29 3 ∧
  (∀ s : State, exec .nop s = .next { s with rspData := 0, rspErr := false }) ∧
  ∀ (s : State) (rest : List PortSample), s.cfg.wellFormed = true →
    s.inputs = { tick := true, cmd := some 0x00000000#32 } :: rest →
    ∃ t, exec .tick { s with rspData := 0, rspErr := false, inputs := rest } = .next t ∧ run 2 s = .next t

/-- R102: START enables the block and restarts the bit at `POS` with the kind the frame gives it; after RESET it
begins position 0, a MARKER. -/
def Obligations.StartRestartsTheBit : Prop :=
  CommandWithoutOperands .start 0x60000000#32 29 3 ∧
  (∀ s : State, exec .start s =
    .next { s with active := true, tcnt := 0, phase := .low, curk := s.frame[s.pos], rspData := 0, rspErr := false }) ∧
  ∀ c : Config, ∃ t, exec .start (State.resetFor c) = .next t ∧ t.pos = 0 ∧ t.curk = .marker

/-- R103: STOP halts and keeps all other state; a tick after it, and one of the same cycle, is ignored. -/
def Obligations.StopKeepsAllState : Prop :=
  CommandWithoutOperands .stop 0x80000000#32 29 3 ∧
  (∀ s : State, exec .stop s = .next { s with active := false, rspData := 0, rspErr := false }) ∧
  (∀ s t : State, exec .stop s = .next t → exec .tick t = .next t) ∧
  ∀ (s : State) (rest : List PortSample), s.cfg.wellFormed = true →
    s.inputs = { tick := true, cmd := some 0x80000000#32 } :: rest →
    run 2 s = .next { s with active := false, rspData := 0, rspErr := false, inputs := rest }

/-- R104: RESUME enables and keeps all other state; after RESET it leaves what START would. -/
def Obligations.ResumeKeepsThePhase : Prop :=
  CommandWithoutOperands .resume 0xA0000000#32 29 3 ∧
  (∀ s : State, exec .resume s = .next { s with active := true, rspData := 0, rspErr := false }) ∧
  ∀ c : Config, exec .resume (State.resetFor c) = exec .start (State.resetFor c)

/-- R105: IS_ACTIVE reports `ACTIVE` in bit 0, the other bits 0, and changes no other state. -/
def Obligations.IsActiveReportsTheFlag : Prop :=
  CommandWithoutOperands .isActive 0xC0000000#32 26 6 ∧
  ∀ s : State, exec .isActive s =
    .next { s with rspData := if s.active then 1#32 else 0#32, rspErr := false }

/-- R103, R104 and the stop-then-resume property: after STOP, any number of ticks and RESUME, a block that was active
has everything but its response as it was, so the next tick continues from the stopped phase. -/
def Obligations.StopTicksResumeLosesNothing : Prop :=
  ∀ (s : State) (n : Nat) (rest : List PortSample), s.cfg.wellFormed = true → s.active = true →
    s.inputs = { cmd := some 0x80000000#32 } :: (tickSamples n ++ { cmd := some 0xA0000000#32 } :: rest) →
    (∀ k ≤ n, ∃ t, run (k + 1) s = .next t ∧ t.outputs.carrierEn = false ∧ t.outputs.dutySel = s.phase) ∧
    run (n + 2) s = .next { s with rspData := 0, rspErr := false, inputs := rest }

/-! ## The bit scheduler -/

/-- R121: TICK, branch by branch as the pseudocode has them. Ignored while `ACTIVE = 0`; LOW to HIGH at the
low-duration; end of the bit from `E` on (with the minute advanced and the frame re-derived when `POS` wraps, position
0 always a MARKER, and a drawn frame while `UNDEF = 1`); else the count goes up. With an accepted configuration the
first two never fire on one tick, and a tick of the same cycle as a command comes after the command. -/
def Obligations.TickBranches : Prop :=
  (∀ s : State,
    (s.active = false → exec .tick s = .next s) ∧
    (s.active = true → s.tcnt.toNat + 1 = s.cfg.lowDur s.curk →
      exec .tick s = .next { s with phase := .high, tcnt := s.tcnt + 1#16 }) ∧
    (s.active = true → s.tcnt.toNat + 1 ≠ s.cfg.lowDur s.curk → s.cfg.e ≤ s.tcnt.toNat + 1 →
      (s.pos.val < 59 → ∃ p : Fin 60, p.val = s.pos.val + 1 ∧
        exec .tick s = .next { s with phase := .low, pos := p, curk := s.frame[p], tcnt := 0 }) ∧
      (s.pos.val = 59 → s.undef = false →
        exec .tick s = .next { s with
          phase := .low, pos := 0, curk := .marker, tcnt := 0
          cal := s.cal.advanceOneMinute s.cfg.leapY00
          frame := encodeFrame (s.cal.advanceOneMinute s.cfg.leapY00) s.cfg.dut1Sign }) ∧
      (s.pos.val = 59 → s.undef = true →
        ∃ f n, Frame.MarkersExact f ∧ exec .tick s = .next { s with
          phase := .low, pos := 0, curk := .marker, tcnt := 0, frame := f, drawNo := n })) ∧
    (s.active = true → s.tcnt.toNat + 1 ≠ s.cfg.lowDur s.curk → s.tcnt.toNat + 1 < s.cfg.e →
      exec .tick s = .next { s with tcnt := s.tcnt + 1#16 })) ∧
  (∀ (c : Config) (k : BitKind), c.wellFormed = true → c.lowDur k < c.e) ∧
  ∀ (s : State) (w : Word) (rest : List PortSample), s.cfg.wellFormed = true →
    s.inputs = { tick := true, cmd := some w } :: rest →
    ∃ t u, runWord w { s with inputs := rest } = .next t ∧ exec .tick t = .next u ∧ run 2 s = .next u

/-- R122: a tick of an active block increments `TCNT` or resets it to 0 and never both, moves `POS` only when the count
reaches `E`, and never leaves `TCNT = E`. -/
def Obligations.TickCountsOrEndsTheBit : Prop :=
  ∀ s t : State, s.Inv → s.active = true → exec .tick s = .next t →
    ((t.tcnt.toNat = s.tcnt.toNat + 1 ∧ t.pos = s.pos) ∨
      (t.tcnt = 0 ∧ t.pos.val = (s.pos.val + 1) % 60 ∧ s.tcnt.toNat + 1 = s.cfg.e ∧ t.phase = .low)) ∧
    t.tcnt.toNat ≠ s.cfg.e

/-- R122: step 2 compares with the resident `CURK`, never with `FRAME`: short of the end of the bit a tick does the
same whatever the frame holds. -/
def Obligations.TickComparesWithTheResidentKind : Prop :=
  ∀ (s t : State) (f : Frame), s.tcnt.toNat + 1 < s.cfg.e → exec .tick s = .next t →
    exec .tick { s with frame := f } = .next { t with frame := f }

/-- R126: between events `TCNT < E <= 65535`, so the incremented count is at most `E` and fits 16 bits; a
configuration that would allow an overflow is refused. -/
def Obligations.TickCounterNeverOverflows : Prop :=
  (∀ s : State, s.Inv →
    s.tcnt.toNat < s.cfg.e ∧ s.cfg.e ≤ 65535 ∧ s.tcnt.toNat + 1 ≤ s.cfg.e ∧
    (s.tcnt + 1#16).toNat = s.tcnt.toNat + 1) ∧
  ∀ s : State, 65535 < s.cfg.e → step s = .refused .illFormedConfiguration

/-- R123: the waveform of one bit of kind `k` with `L = LowDur(k)`, from an event that leaves it begun. -/
def Obligations.BitWaveform : Prop :=
  ∀ (s : State) (rest : List PortSample), s.cfg.wellFormed = true → s.active = true → s.tcnt = 0 → s.phase = .low →
    s.inputs = tickSamples s.cfg.e ++ rest →
    (∀ n, 1 ≤ n → n ≤ s.cfg.lowDur s.curk - 1 →
      ∃ t, run n s = .next t ∧ t.phase = .low ∧ t.tcnt.toNat = n ∧ t.pos = s.pos) ∧
    (∃ t, run (s.cfg.lowDur s.curk) s = .next t ∧ t.phase = .high ∧ t.tcnt.toNat = s.cfg.lowDur s.curk ∧
      t.pos = s.pos) ∧
    (∀ n, s.cfg.lowDur s.curk + 1 ≤ n → n ≤ s.cfg.e - 1 →
      ∃ t, run n s = .next t ∧ t.phase = .high ∧ t.tcnt.toNat = n ∧ t.pos = s.pos) ∧
    (∃ t, run s.cfg.e s = .next t ∧ t.phase = .low ∧ t.tcnt = 0 ∧ t.pos.val = (s.pos.val + 1) % 60 ∧
      t.curk = t.kindAt t.pos ∧ t.inputs = rest)

/-- R124: a block at the beginning of a frame whose calendar is defined transmits, for `60 * E` ticks a frame and any
number `m` of frames, first the positions of its frame in turn and then the frames of the calendar one minute later
each. -/
def Obligations.FramesFollowTheMinutes : Prop :=
  ∀ (s : State) (m k : Nat) (rest : List PortSample), s.Inv → s.undef = false → s.active = true →
    s.tcnt = 0 → s.phase = .low → s.pos = 0 → k < 60 →
    s.inputs = tickSamples (m * (60 * s.cfg.e) + k * s.cfg.e) ++ rest →
    ∃ t, run (m * (60 * s.cfg.e) + k * s.cfg.e) s = .next t ∧
      t.pos.val = k ∧ t.tcnt = 0 ∧ t.phase = .low ∧ t.active = true ∧
      t.cal = s.cal.advanceN s.cfg.leapY00 m ∧
      t.frame = encodeFrame (s.cal.advanceN s.cfg.leapY00 m) s.cfg.dut1Sign ∧
      t.curk = t.kindAt t.pos ∧ t.inputs = rest

/-- R125: GET_TIMER. -/
def Obligations.GetTimerReportsTheTimer : Prop :=
  CommandWithoutOperands .getTimer 0xD0000000#32 26 6 ∧
  ∀ s : State, ∃ d : Word, exec .getTimer s = .next { s with rspData := d, rspErr := false } ∧
    d.extractLsb' 0 16 = s.tcnt ∧ (d.extractLsb' 16 6).toNat = s.pos.val ∧
    d.extractLsb' 22 1 = (match s.phase with
      | .low => 0#1
      | .high => 1#1) ∧
    d.extractLsb' 23 1 = (if s.active then 1#1 else 0#1) ∧
    d.extractLsb' 24 2 = (match s.curk with
      | .zero => 0#2
      | .one => 1#2
      | .marker => 2#2) ∧
    d.extractLsb' 26 6 = 0#6

/-! ## Encoder commands -/

/-- R140, legal operands: the calendar is the operands' advanced by one minute, the frame its `Encode`, and the bit
timer at the start of position 0, a MARKER; `ACTIVE` is kept. -/
def Obligations.SetTimeWithLegalOperands : Prop :=
  ∀ (s : State) (mi : BitVec 6) (hr dy : BitVec 5) (mo : BitVec 4) (yr : BitVec 7) (ds : BitVec 2),
    legalTime s.cfg.leapY00 mi.toNat hr.toNat dy.toNat mo.toNat yr.toNat = true →
    let leap := isLeap s.cfg.leapY00 yr.toNat
    let stored : Calendar :=
      { min := mi, hour := hr, day := dy, mon := mo, year := yr,
        doy := BitVec.ofNat 9 (dayOfYear dy.toNat mo.toNat leap), leap := leap, dst := ds, lsw := s.cal.lsw }
    let c := stored.advanceOneMinute s.cfg.leapY00
    exec (.setTime mi hr dy mo yr ds) s = .next { s with
      cal := c, undef := false, frame := encodeFrame c s.cfg.dut1Sign
      pos := 0, tcnt := 0, phase := .low, curk := .marker, rspData := 0, rspErr := false }

/-- R140, R25, R172, operands out of range: not reported, `UNDEF = 1`, the operands stored as given, MARKER at exactly
the positions of MSET and a data kind at every other, the bit timer realigned; every value the draw leaves free is one
of the frame's data positions (that `LEAP` and `DOY` keep their values unread is the model's choice, assumption log 7, and
that the draw uses up one draw number is the model's form of a draw, log 4). -/
def Obligations.SetTimeWithIllegalOperands : Prop :=
  ∀ (s : State) (mi : BitVec 6) (hr dy : BitVec 5) (mo : BitVec 4) (yr : BitVec 7) (ds : BitVec 2),
    legalTime s.cfg.leapY00 mi.toNat hr.toNat dy.toNat mo.toNat yr.toNat = false →
    ∃ f : Frame, Frame.MarkersExact f ∧
      exec (.setTime mi hr dy mo yr ds) s = .next { s with
        cal := { s.cal with min := mi, hour := hr, day := dy, mon := mo, year := yr, dst := ds }
        undef := true, frame := f, drawNo := s.drawNo + 1
        pos := 0, tcnt := 0, phase := .low, curk := .marker, rspData := 0, rspErr := false }

/-- R183: which SET_TIME operands are legal, with the month lengths of R181 and the leap years of R180 written out. -/
def Obligations.LegalOperandsAreTheGregorianDates : Prop :=
  ∀ (y00 : Bool) (mi hr dy mo yr : Nat),
    legalTime y00 mi hr dy mo yr = true ↔
      mi ≤ 59 ∧ hr ≤ 23 ∧ (1 ≤ mo ∧ mo ≤ 12) ∧ yr ≤ 99 ∧ 1 ≤ dy ∧
      dy ≤ (if mo = 2 then (if 4 ∣ yr ∧ (yr ≠ 0 ∨ y00 = true) then 29 else 28)
        else if mo = 4 ∨ mo = 6 ∨ mo = 9 ∨ mo = 11 then 30 else 31)

/-- R142 (a): after SET_TIME with legal operands before the last minute of an hour, GET_TIME reads the operands one
minute later. -/
def Obligations.GetTimeAfterSetTimeIsOneMinuteLater : Prop :=
  ∀ (s : State) (mi : BitVec 6) (hr dy : BitVec 5) (mo : BitVec 4) (yr : BitVec 7) (ds : BitVec 2),
    legalTime s.cfg.leapY00 mi.toNat hr.toNat dy.toNat mo.toNat yr.toNat = true → mi.toNat < 59 →
    ∃ t u, exec (.setTime mi hr dy mo yr ds) s = .next t ∧ exec .getTime t = .next u ∧
      (u.rspData.extractLsb' 23 6).toNat = mi.toNat + 1 ∧ u.rspData.extractLsb' 18 5 = hr ∧
      u.rspData.extractLsb' 13 5 = dy ∧ u.rspData.extractLsb' 9 4 = mo ∧ u.rspData.extractLsb' 2 7 = yr ∧
      u.rspData.extractLsb' 0 2 = ds

/-- R141: ADVANCE. With a defined calendar it advances `60 * AH + AM` minutes and the frame is re-derived; with
`UNDEF = 1` the calendar stays undefined and the frame is drawn anew (for `ADVANCE 0, 0` too: assumption log 6; that the
draw uses up one draw number is the model's form of a draw, log 4). -/
def Obligations.AdvanceMovesOnlyTheCalendar : Prop :=
  (∀ w : Word, w.extractLsb' 29 3 = 2#3 →
    (w.extractLsb' 16 13 = 0#13 → decode w = .command (.advance (w.extractLsb' 8 8) (w.extractLsb' 0 8))) ∧
    (w.extractLsb' 16 13 ≠ 0#13 → decode w = .illegal .reservedBits)) ∧
  ∀ (s : State) (ah am : BitVec 8),
    (s.undef = false →
      let c := s.cal.advanceN s.cfg.leapY00 (60 * ah.toNat + am.toNat)
      exec (.advance ah am) s = .next { s with
        cal := c, frame := encodeFrame c s.cfg.dut1Sign, rspData := 0, rspErr := false }) ∧
    (s.undef = true → ∃ f : Frame, Frame.MarkersExact f ∧
      exec (.advance ah am) s = .next { s with frame := f, drawNo := s.drawNo + 1, rspData := 0, rspErr := false })

/-- R141 (a): in a state of the invariant with a defined calendar, `ADVANCE 0, 0` changes nothing but the response
registers. -/
def Obligations.AdvanceByZeroChangesNothing : Prop :=
  ∀ s : State, s.Inv → s.undef = false →
    exec (.advance 0 0) s = .next { s with rspData := 0, rspErr := false }

/-- R142: GET_TIME reads the calendar at the positions of the SET_TIME operands and changes no other state; while
`UNDEF = 1` the five time fields are draws (their form is assumption log 4) and DST is the stored code. -/
def Obligations.GetTimeReportsTheCalendar : Prop :=
  CommandWithoutOperands .getTime 0xC4000000#32 26 6 ∧
  (∀ s : State, s.undef = false → ∃ d : Word,
    exec .getTime s = .next { s with rspData := d, rspErr := false } ∧
    d.extractLsb' 29 3 = 0#3 ∧ d.extractLsb' 23 6 = s.cal.min ∧ d.extractLsb' 18 5 = s.cal.hour ∧
    d.extractLsb' 13 5 = s.cal.day ∧ d.extractLsb' 9 4 = s.cal.mon ∧ d.extractLsb' 2 7 = s.cal.year ∧
    d.extractLsb' 0 2 = s.cal.dst) ∧
  (∀ s : State, s.undef = true → ∃ d : Word,
    exec .getTime s = .next { s with rspData := d, rspErr := false, drawNo := s.drawNo + 1 } ∧
    d.extractLsb' 29 3 = 0#3 ∧ d.extractLsb' 23 6 = Config.drawMin s.drawNo ∧
    d.extractLsb' 18 5 = Config.drawHour s.drawNo ∧ d.extractLsb' 13 5 = Config.drawDay s.drawNo ∧
    d.extractLsb' 9 4 = Config.drawMon s.drawNo ∧ d.extractLsb' 2 7 = Config.drawYear s.drawNo ∧
    d.extractLsb' 0 2 = s.cal.dst)

/-- R143: GET_DOY reads `DOY`, `LEAP` and `LSW`, which is always 0, and changes no other state; while `UNDEF = 1`, `DOY`
and `LEAP` are draws (their form is assumption log 4). -/
def Obligations.GetDoyReportsTheDerivedFields : Prop :=
  CommandWithoutOperands .getDoy 0xC8000000#32 26 6 ∧
  (∀ s : State, s.undef = false → ∃ d : Word,
    exec .getDoy s = .next { s with rspData := d, rspErr := false } ∧
    d.extractLsb' 0 9 = s.cal.doy ∧ d.extractLsb' 9 1 = (if s.cal.leap then 1#1 else 0#1) ∧
    d.extractLsb' 10 1 = (if s.cal.lsw then 1#1 else 0#1) ∧ d.extractLsb' 11 21 = 0#21) ∧
  (∀ s : State, s.undef = true → ∃ d : Word,
    exec .getDoy s = .next { s with rspData := d, rspErr := false, drawNo := s.drawNo + 1 } ∧
    d.extractLsb' 0 9 = Config.drawDoy s.drawNo ∧
    d.extractLsb' 9 1 = (if Config.drawLeap s.drawNo then 1#1 else 0#1) ∧
    d.extractLsb' 10 1 = (if s.cal.lsw then 1#1 else 0#1) ∧ d.extractLsb' 11 21 = 0#21) ∧
  ∀ s t : State, s.Inv → exec .getDoy s = .next t → t.rspData.extractLsb' 10 1 = 0#1

/-- R144: BITKIND_AT reads the current frame; an index of 60 to 63 is `CommandError(4)`, reserved bits are
`CommandError(2)`. -/
def Obligations.BitkindAtReadsTheFrame : Prop :=
  (∀ v : Word, v.extractLsb' 26 6 = 0b110011#6 →
    (v.extractLsb' 6 20 ≠ 0#20 → decode v = .illegal .reservedBits) ∧
    (v.extractLsb' 6 20 = 0#20 → 60 ≤ (v.extractLsb' 0 6).toNat → decode v = .illegal .indexRange) ∧
    (v.extractLsb' 6 20 = 0#20 → (v.extractLsb' 0 6).toNat < 60 →
      decode v = .command (.bitkindAt (v.extractLsb' 0 6)))) ∧
  (∀ (s : State) (idx : BitVec 6) (i : Fin 60), idx.toNat = i.val →
    exec (.bitkindAt idx) s = .next { s with
      rspData := (match s.frame[i] with
        | .zero => 0#32
        | .one => 1#32
        | .marker => 2#32)
      rspErr := false }) ∧
  (∀ (s : State) (idx : BitVec 6), 60 ≤ idx.toNat →
    exec (.bitkindAt idx) s = .next { s with rspData := 4#32, rspErr := true }) ∧
  ∀ (s t : State) (idx : BitVec 6), s.Inv → idx.toNat < 60 → exec (.bitkindAt idx) s = .next t →
    (t.rspData = 2#32 ↔ idx.toNat ∈ [0, 9, 19, 29, 39, 49, 59]) ∧ t.rspData.toNat ≤ 2

/-- D4: GET_TIME mirrors the SET_TIME operand positions: the word read back, with OP 001, is the SET_TIME of the
calendar's own registers. -/
def Obligations.ReadBackTimeCanBeReissued : Prop :=
  ∀ s t : State, s.undef = false → exec .getTime s = .next t →
    decode (t.rspData ||| 0x20000000#32) =
      .command (.setTime s.cal.min s.cal.hour s.cal.day s.cal.mon s.cal.year s.cal.dst)

/-! ## Calendar arithmetic -/

/-- R184 and R185 as elapsed time: from a valid calendar, advancing by `n` minutes moves the count of minutes since
00:00 on 1 January of year 00 by exactly `n`, wrapping after year 99. -/
def Obligations.AdvanceIsElapsedTime : Prop :=
  ∀ (y00 : Bool) (c : Calendar) (n : Nat), c.Valid y00 →
    (c.advanceN y00 n).minuteOfCentury y00 = (c.minuteOfCentury y00 + n) % minutesPerCentury y00

/-- R186: `AdvanceOneMinute` and `AdvanceN` preserve the calendar invariant of R33, its `LSW = 0` included. -/
def Obligations.AdvancePreservesTheCalendarInvariant : Prop :=
  ∀ (y00 : Bool) (c : Calendar), c.Valid y00 →
    ((c.advanceOneMinute y00).Valid y00 ∧ (c.lsw = false → (c.advanceOneMinute y00).lsw = false)) ∧
    ∀ n, (c.advanceN y00 n).Valid y00 ∧ (c.lsw = false → (c.advanceN y00 n).lsw = false)

/-- R184: the corner cases of the one-minute advance, for every valid calendar: 59 to 0 with the hour, 23:59 to 00:00
with the day, the last day of a month to day 1 of the next, 31 December of year 99 to 1 January of year 00. -/
def Obligations.RollOverCorners : Prop :=
  ∀ (y00 : Bool) (c : Calendar), c.Valid y00 →
    let d := c.advanceOneMinute y00
    (c.min.toNat < 59 → d = { c with min := c.min + 1#6 }) ∧
    (c.min = 59#6 → c.hour.toNat < 23 → d = { c with min := 0, hour := c.hour + 1#5 }) ∧
    (c.min = 59#6 → c.hour = 23#5 → c.day.toNat < monthLen c.mon.toNat c.leap →
      d = { c with min := 0, hour := 0, day := c.day + 1#5, doy := c.doy + 1#9 }) ∧
    (c.min = 59#6 → c.hour = 23#5 → c.day.toNat = monthLen c.mon.toNat c.leap → c.mon.toNat < 12 →
      d = { c with min := 0, hour := 0, day := 1, mon := c.mon + 1#4, doy := c.doy + 1#9 }) ∧
    (c.min = 59#6 → c.hour = 23#5 → c.day = 31#5 → c.mon = 12#4 →
      d.min = 0 ∧ d.hour = 0 ∧ d.day = 1 ∧ d.mon = 1 ∧ d.doy = 1 ∧ d.dst = c.dst ∧ d.lsw = c.lsw ∧
      d.year.toNat = (c.year.toNat + 1) % 100 ∧ d.leap = isLeap y00 ((c.year.toNat + 1) % 100))

/-- R182: the day of the year by the table of the days before each month; for legal dates it is in 1..365, or 1..366
in a leap year; 1 January is day 1. -/
def Obligations.DayOfYearTableAndRange : Prop :=
  (∀ (d m : Nat) (leap : Bool), 1 ≤ m → m ≤ 12 →
    dayOfYear d m leap = [0, 31, 59, 90, 120, 151, 181, 212, 243, 273, 304, 334].getD (m - 1) 0 + d +
      (if leap = true ∧ m > 2 then 1 else 0)) ∧
  dayOfYear 1 1 false = 1 ∧
  ∀ (y00 : Bool) (mi hr dy mo yr : Nat), legalTime y00 mi hr dy mo yr = true →
    1 ≤ dayOfYear dy mo (isLeap y00 yr) ∧
    dayOfYear dy mo (isLeap y00 yr) ≤ (if isLeap y00 yr = true then 366 else 365)

/-- R185: two ADVANCEs in succession leave the calendar and the frame of one by the sum of their minutes. -/
def Obligations.AdvancesCompose : Prop :=
  ∀ (s : State) (ah am ah' am' ah'' am'' : BitVec 8), s.undef = false →
    60 * ah''.toNat + am''.toNat = (60 * ah.toNat + am.toNat) + (60 * ah'.toNat + am'.toNat) →
    ∃ t, exec (.advance ah am) s = .next t ∧ exec (.advance ah' am') t = exec (.advance ah'' am'') s

/-- R187: the DST code changes only by SET_TIME and RESET, the LSW flag only by RESET. -/
def Obligations.OnlySetTimeAndResetChangeDst : Prop :=
  ∀ (i : Instr) (s t : State), exec i s = .next t →
    (t.cal.dst ≠ s.cal.dst → i = .reset ∨ ∃ mi hr dy mo yr ds, i = .setTime mi hr dy mo yr ds) ∧
    (t.cal.lsw ≠ s.cal.lsw → i = .reset)

/-! ## Field derivation -/

/-- R160: MARKER at exactly the positions of MSET, whatever the calendar, and in undefined frames too. -/
def Obligations.MarkersStandAtTheirPositions : Prop :=
  ∀ (c : Calendar) (sign : Dut1Sign) (draws : BitVec 60) (i : Fin 60),
    ((encodeFrame c sign)[i] = BitKind.marker ↔ i.val ∈ [0, 9, 19, 29, 39, 49, 59]) ∧
    ((drawnFrame draws)[i] = BitKind.marker ↔ i.val ∈ [0, 9, 19, 29, 39, 49, 59])

/-- R171 (c) with the table of R161: the weights of the ONE positions of each field sum to the field's value. -/
def Obligations.FieldWeightsSumToTheValue : Prop :=
  ∀ (c : Calendar) (sign : Dut1Sign),
    let b := (encodeFrame c sign).bit
    (c.min.toNat ≤ 59 → 40 * b 1 + 20 * b 2 + 10 * b 3 + 8 * b 5 + 4 * b 6 + 2 * b 7 + b 8 = c.min.toNat) ∧
    (c.hour.toNat ≤ 23 → 20 * b 12 + 10 * b 13 + 8 * b 15 + 4 * b 16 + 2 * b 17 + b 18 = c.hour.toNat) ∧
    (1 ≤ c.doy.toNat → c.doy.toNat ≤ 366 →
      200 * b 22 + 100 * b 23 + 80 * b 25 + 40 * b 26 + 20 * b 27 + 10 * b 28 + 8 * b 30 + 4 * b 31 + 2 * b 32
        + b 33 = c.doy.toNat) ∧
    (c.year.toNat ≤ 99 →
      80 * b 45 + 40 * b 46 + 20 * b 47 + 10 * b 48 + 8 * b 50 + 4 * b 51 + 2 * b 52 + b 53 = c.year.toNat)

/-- R169: the unused positions carry ZERO. -/
def Obligations.UnusedPositionsAreZero : Prop :=
  ∀ (c : Calendar) (sign : Dut1Sign) (i : Fin 60), i.val ∈ [4, 10, 11, 14, 20, 21, 24, 34, 35, 44, 54] →
    (encodeFrame c sign)[i] = BitKind.zero

/-- R167: the DUT1 field. -/
def Obligations.Dut1FieldIsConstant : Prop :=
  ∀ (c : Calendar) (i : Fin 60),
    (∀ sign, i.val ∈ [34, 35, 40, 41, 42, 43] → (encodeFrame c sign)[i] = BitKind.zero) ∧
    (i.val ∈ [36, 38] → (encodeFrame c .neg)[i] = BitKind.zero ∧ (encodeFrame c .pos)[i] = BitKind.one) ∧
    (i.val = 37 → (encodeFrame c .neg)[i] = BitKind.one ∧ (encodeFrame c .pos)[i] = BitKind.zero)

/-- R168: the MISC field. -/
def Obligations.MiscFieldCarriesLeapAndDst : Prop :=
  ∀ (c : Calendar) (sign : Dut1Sign),
    let f := encodeFrame c sign
    (f[55] = if c.leap then BitKind.one else BitKind.zero) ∧
    (f[56] = if c.lsw then BitKind.one else BitKind.zero) ∧
    (f[57] = if c.dst.getLsbD 1 then BitKind.one else BitKind.zero) ∧
    (f[58] = if c.dst.getLsbD 0 then BitKind.one else BitKind.zero) ∧
    f[54] = BitKind.zero

/-- A frame determines its calendar: two valid calendars (of equal `LSW`) with the same frame are the same calendar,
so that what the block transmits is all a receiver needs. -/
def Obligations.FrameDeterminesTheCalendar : Prop :=
  ∀ (y00 : Bool) (c d : Calendar) (sign : Dut1Sign), c.Valid y00 → d.Valid y00 → c.lsw = d.lsw →
    encodeFrame c sign = encodeFrame d sign → c = d

/-- R172, R184, R140: undefined frame content is drawn, and drawn anew exactly at the events that re-derive the fields: a
SET_TIME that leaves `UNDEF = 1`, whatever `UNDEF` was before (so the frame is not computed from its operands), and,
while `UNDEF = 1`, ADVANCE (`ADVANCE 0, 0` too: the model's choice, assumption log 6) and the tick that ends position
59. In between it is fixed. No draw is used twice: every event that draws, the reads GET_TIME and GET_DOY among them,
raises the draw number, no event lowers it, and one that leaves the calendar defined draws nothing (the numbering of
the draws is the model's own: log 4). -/
def Obligations.UndefinedFrameIsRedrawnOnlyAtRederivations : Prop :=
  ∀ (i : Instr) (s t : State), exec i s = .next t →
    s.drawNo ≤ t.drawNo ∧
    (t.undef = false → t.drawNo = s.drawNo) ∧
    (t.undef = true → (∃ mi hr dy mo yr ds, i = .setTime mi hr dy mo yr ds) →
      t.frame = drawnFrame (Config.drawFrame s.drawNo) ∧ t.drawNo = s.drawNo + 1) ∧
    (s.undef = true → (∃ ah am, i = .advance ah am) →
      t.frame = drawnFrame (Config.drawFrame s.drawNo) ∧ t.drawNo = s.drawNo + 1) ∧
    (s.undef = true → i = .tick →
      let ends : Prop := s.active = true ∧ s.tcnt.toNat + 1 ≠ s.cfg.lowDur s.curk ∧ s.cfg.e ≤ s.tcnt.toNat + 1 ∧
        s.pos.val = 59
      (ends → t.frame = drawnFrame (Config.drawFrame s.drawNo) ∧ t.drawNo = s.drawNo + 1) ∧
      (¬ ends → t.frame = s.frame ∧ t.drawNo = s.drawNo)) ∧
    (s.undef = true → t.undef = true → (∀ mi hr dy mo yr ds, i ≠ .setTime mi hr dy mo yr ds) →
      (∀ ah am, i ≠ .advance ah am) → i ≠ .tick → t.frame = s.frame ∧
        (i = .getTime ∨ i = .getDoy → t.drawNo = s.drawNo + 1) ∧
        (i ≠ .getTime → i ≠ .getDoy → t.drawNo = s.drawNo))

/-! ## Reset, writers and invariants -/

/-- R38: RESET gives every state element its reset value, whatever the state; the parameters are not touched (R220). -/
def Obligations.ResetValues : Prop :=
  ∀ s : State, ∃ t, exec .reset s = .next t ∧
    t.cal.min = 0 ∧ t.cal.hour = 0 ∧ t.cal.day = 1 ∧ t.cal.mon = 1 ∧ t.cal.year = 0 ∧
    t.cal.leap = isLeap s.cfg.leapY00 0 ∧ t.cal.doy = 1 ∧ t.cal.dst = 0 ∧ t.cal.lsw = false ∧ t.undef = false ∧
    t.frame = encodeFrame t.cal s.cfg.dut1Sign ∧ t.tcnt = 0 ∧ t.phase = .low ∧ t.pos = 0 ∧ t.curk = .marker ∧
    t.active = false ∧ t.rspData = 0 ∧ t.rspErr = false ∧
    t.cfg = s.cfg

/-- R221: the outputs after RESET, and the reset frame, whose only ONE positions are 33 and, with the default sign,
37 (year 00 not a leap year). -/
def Obligations.OutputsAndFrameAfterReset : Prop :=
  ∀ s t : State, exec .reset s = .next t →
    t.outputs = { dutySel := .low, carrierEn := false, rspData := 0, rspErr := false } ∧
    (s.cfg.dut1Sign = .neg → s.cfg.leapY00 = false → ∀ i : Fin 60, t.frame[i] = BitKind.one ↔ i.val = 33 ∨ i.val = 37)

/-- R39, R54: which events write which state; the columns marked unchanged. -/
def Obligations.EventsWriteOnlyTheirState : Prop :=
  ∀ (i : Instr) (s t : State), exec i s = .next t →
    t.cfg = s.cfg ∧ t.inputs = s.inputs ∧
    (i = .start ∨ i = .stop ∨ i = .resume ∨ i = .nop ∨ i = .isActive ∨ i = .getTime ∨ i = .getDoy ∨
        i = .getTimer ∨ (∃ idx, i = .bitkindAt idx) → t.cal = s.cal ∧ t.frame = s.frame ∧ t.pos = s.pos) ∧
    (i = .stop ∨ i = .resume ∨ i = .nop ∨ i = .isActive ∨ i = .getTime ∨ i = .getDoy ∨ i = .getTimer ∨
        (∃ idx, i = .bitkindAt idx) ∨ (∃ ah am, i = .advance ah am) →
      t.tcnt = s.tcnt ∧ t.phase = s.phase ∧ t.curk = s.curk ∧ t.pos = s.pos) ∧
    (i = .tick → t.active = s.active ∧ t.rspData = s.rspData ∧ t.rspErr = s.rspErr) ∧
    (i = .tick → s.pos.val ≠ 59 → t.cal = s.cal ∧ t.frame = s.frame) ∧
    (t.active ≠ s.active → i = .reset ∨ i = .start ∨ i = .stop ∨ i = .resume) ∧
    (t.undef ≠ s.undef → i = .reset ∨ ∃ mi hr dy mo yr ds, i = .setTime mi hr dy mo yr ds) ∧
    (i ≠ .reset → i ≠ .tick → i.wellFormed = true → t.rspErr = false)

/-- R25: `UNDEF` comes up only by a SET_TIME with illegal operands and goes down only by a legal one or RESET. -/
def Obligations.UndefComesAndGoesWithSetTime : Prop :=
  ∀ (i : Instr) (s t : State), exec i s = .next t →
    (s.undef = false → t.undef = true →
      ∃ mi hr dy mo yr ds, i = .setTime mi hr dy mo yr ds ∧
        legalTime s.cfg.leapY00 mi.toNat hr.toNat dy.toNat mo.toNat yr.toNat = false) ∧
    (s.undef = true → t.undef = false →
      i = .reset ∨ ∃ mi hr dy mo yr ds, i = .setTime mi hr dy mo yr ds ∧
        legalTime s.cfg.leapY00 mi.toNat hr.toNat dy.toNat mo.toNat yr.toNat = true)

/-- R30, R59, R224: ADVANCE does not change the kind of the bit on the air, and the next bit that begins takes its kind
from the new frame. -/
def Obligations.AdvanceTakesEffectFromTheNextBit : Prop :=
  ∀ (s : State) (ah am : BitVec 8), s.cfg.wellFormed = true → s.active = true → s.undef = false →
    s.tcnt.toNat + 1 = s.cfg.e → s.pos.val < 59 →
    ∃ t u, exec (.advance ah am) s = .next t ∧ t.curk = s.curk ∧ exec .tick t = .next u ∧
      u.pos.val = s.pos.val + 1 ∧
      u.curk = (encodeFrame (s.cal.advanceN s.cfg.leapY00 (60 * ah.toNat + am.toNat)) s.cfg.dut1Sign)[u.pos]

/-- R55: a NOP, a READ, START, STOP, RESUME or SET_TIME (and a RESET) twice in a row leaves the state it leaves once,
whether the calendar is defined before it or not. Where the repetition draws anew it leaves the same state but for the
draws: a SET_TIME with illegal operands but for the drawn frame, GET_TIME and GET_DOY, which draw only while
`UNDEF = 1`, but for the answer. -/
def Obligations.RepeatedCommandsAreIdempotent : Prop :=
  (∀ (i : Instr) (s t : State), i ≠ .tick → (∀ ah am, i ≠ .advance ah am) →
    (s.undef = true → i ≠ .getTime ∧ i ≠ .getDoy) →
    (∀ mi hr dy mo yr ds, i = .setTime mi hr dy mo yr ds →
      legalTime s.cfg.leapY00 mi.toNat hr.toNat dy.toNat mo.toNat yr.toNat = true) →
    exec i s = .next t → exec i t = .next t) ∧
  (∀ (s t : State) (mi : BitVec 6) (hr dy : BitVec 5) (mo : BitVec 4) (yr : BitVec 7) (ds : BitVec 2),
    legalTime s.cfg.leapY00 mi.toNat hr.toNat dy.toNat mo.toNat yr.toNat = false →
    exec (.setTime mi hr dy mo yr ds) s = .next t →
    ∃ f n, Frame.MarkersExact f ∧ exec (.setTime mi hr dy mo yr ds) t = .next { t with frame := f, drawNo := n }) ∧
  ∀ (i : Instr) (s t : State), i = .getTime ∨ i = .getDoy → exec i s = .next t →
    ∃ d n, exec i t = .next { t with rspData := d, drawNo := n }

/-- The reset state meets the invariant of R33, for every accepted configuration, and so does the model's own reset
state (whose nominal configuration is the model's choice, assumption log 1). -/
def Obligations.ResetMeetsTheInvariant : Prop :=
  (∀ c : Config, c.wellFormed = true → (State.resetFor c).Inv) ∧ State.reset.Inv

/-- R33: from every state of the invariant a step answers a state of the invariant, whatever the inputs. -/
def Obligations.EveryStepKeepsTheInvariant : Prop :=
  ∀ s : State, s.Inv → ∃ t, step s = .next t ∧ t.Inv

/-! ## Observation -/

/-- R10: the trace has the outputs after each event and nothing else. A cycle that presents one event adds the outputs
of the state the event leaves; a cycle with a command and a tick adds two entries, after the command and after the
tick; so the run RESET, `evs` has one entry an event, the first being the outputs after RESET. A cycle that presents
nothing adds none, and neither do inputs that are used up (that such a step takes no event is the model's choice,
assumption log 2). -/
def Obligations.TraceHasOneEntryPerEvent : Prop :=
  ∀ s : State, s.cfg.wellFormed = true →
    (∀ evs : List Event, (observation evs s).length = evs.length + 1 ∧
      (observation evs s).head? = some { dutySel := .low, carrierEn := false, rspData := 0, rspErr := false }) ∧
    (∀ (n : Nat) (ev : Event) (rest : List PortSample), s.inputs = ev.sample :: rest →
      ∃ t, runEvent (some ev) { s with inputs := rest } = .next t ∧ trace (n + 1) s = t.outputs :: trace n t) ∧
    (∀ (n : Nat) (w : Word) (rest : List PortSample), s.inputs = { tick := true, cmd := some w } :: rest →
      ∃ t u, runWord w { s with inputs := rest } = .next t ∧ exec .tick t = .next u ∧
        trace (n + 2) s = t.outputs :: u.outputs :: trace n u) ∧
    (∀ (n : Nat) (rest : List PortSample), s.inputs = {} :: rest → trace (n + 1) s = trace n { s with inputs := rest }) ∧
    (∀ n : Nat, s.inputs = [] → trace n s = [])
end

