-- ==== Sys2Proof/Laws/Calendar.lean ====
section
/-! SUPPORT. The calendar arithmetic (`44_calendar.md`): the steps of R184 one by one, the month and day-of-year
tables, and the count of leap years. -/

namespace Sys2Proof.Machine

variable (y00 : Bool) (c : Calendar)

/-! ## The carry chain of R184 -/

theorem Calendar.nextYear_wrap (h : c.year.toNat + 1 = 100) :
    c.nextYear y00 = { c with year := 0, leap := isLeap y00 0 } := by
  simp [Calendar.nextYear, h]

theorem Calendar.nextYear_next (h : c.year.toNat + 1 ≠ 100) :
    c.nextYear y00 =
      { c with year := BitVec.ofNat 7 (c.year.toNat + 1), leap := isLeap y00 (c.year.toNat + 1) } := by
  simp [Calendar.nextYear, h]

theorem Calendar.nextMonth_wrap (h : c.mon.toNat + 1 = 13) :
    c.nextMonth y00 = { c with mon := 1 }.nextYear y00 := by
  simp [Calendar.nextMonth, h]

theorem Calendar.nextMonth_next (h : c.mon.toNat + 1 ≠ 13) :
    c.nextMonth y00 = { c with mon := BitVec.ofNat 4 (c.mon.toNat + 1) } := by
  simp [Calendar.nextMonth, h]

theorem Calendar.nextDay_wrap (h : monthLen c.mon.toNat c.leap < c.day.toNat + 1) :
    c.nextDay y00 = { c with day := 1 }.nextMonth y00 := by
  simp [Calendar.nextDay, h]

theorem Calendar.nextDay_next (h : ¬ monthLen c.mon.toNat c.leap < c.day.toNat + 1) :
    c.nextDay y00 = { c with day := BitVec.ofNat 5 (c.day.toNat + 1) } := by
  simp only [Calendar.nextDay, if_neg h]

theorem Calendar.nextHour_wrap (h : c.hour.toNat + 1 = 24) :
    c.nextHour y00 = { c with hour := 0 }.nextDay y00 := by
  simp [Calendar.nextHour, h]

theorem Calendar.nextHour_next (h : c.hour.toNat + 1 ≠ 24) :
    c.nextHour y00 = { c with hour := BitVec.ofNat 5 (c.hour.toNat + 1) } := by
  simp [Calendar.nextHour, h]

theorem Calendar.nextMinute_wrap (h : c.min.toNat + 1 = 60) :
    c.nextMinute y00 = { c with min := 0 }.nextHour y00 := by
  simp [Calendar.nextMinute, h]

theorem Calendar.nextMinute_next (h : c.min.toNat + 1 ≠ 60) :
    c.nextMinute y00 = { c with min := BitVec.ofNat 6 (c.min.toNat + 1) } := by
  simp [Calendar.nextMinute, h]

/-! ## What the chain never writes (R187) -/

@[simp] theorem Calendar.nextYear_dst : (c.nextYear y00).dst = c.dst := rfl
@[simp] theorem Calendar.nextYear_lsw : (c.nextYear y00).lsw = c.lsw := rfl

@[simp] theorem Calendar.nextMonth_dst : (c.nextMonth y00).dst = c.dst := by
  unfold Calendar.nextMonth; split <;> rfl
@[simp] theorem Calendar.nextMonth_lsw : (c.nextMonth y00).lsw = c.lsw := by
  unfold Calendar.nextMonth; split <;> rfl

@[simp] theorem Calendar.nextDay_dst : (c.nextDay y00).dst = c.dst := by
  unfold Calendar.nextDay; split <;> simp
@[simp] theorem Calendar.nextDay_lsw : (c.nextDay y00).lsw = c.lsw := by
  unfold Calendar.nextDay; split <;> simp

@[simp] theorem Calendar.nextHour_dst : (c.nextHour y00).dst = c.dst := by
  unfold Calendar.nextHour; split <;> simp
@[simp] theorem Calendar.nextHour_lsw : (c.nextHour y00).lsw = c.lsw := by
  unfold Calendar.nextHour; split <;> simp

@[simp] theorem Calendar.nextMinute_dst : (c.nextMinute y00).dst = c.dst := by
  unfold Calendar.nextMinute; split <;> simp
@[simp] theorem Calendar.nextMinute_lsw : (c.nextMinute y00).lsw = c.lsw := by
  unfold Calendar.nextMinute; split <;> simp

@[simp] theorem Calendar.advanceOneMinute_dst : (c.advanceOneMinute y00).dst = c.dst := by
  simp [Calendar.advanceOneMinute, Calendar.deriveDoy]
@[simp] theorem Calendar.advanceOneMinute_lsw : (c.advanceOneMinute y00).lsw = c.lsw := by
  simp [Calendar.advanceOneMinute, Calendar.deriveDoy]

@[simp] theorem Calendar.advanceN_zero : c.advanceN y00 0 = c := rfl

theorem Calendar.advanceN_succ (n : Nat) :
    c.advanceN y00 (n + 1) = (c.advanceOneMinute y00).advanceN y00 n := rfl

@[simp] theorem Calendar.advanceN_dst (n : Nat) : (c.advanceN y00 n).dst = c.dst := by
  induction n generalizing c with
  | zero => rfl
  | succ n ih => rw [Calendar.advanceN_succ, ih, Calendar.advanceOneMinute_dst]

@[simp] theorem Calendar.advanceN_lsw (n : Nat) : (c.advanceN y00 n).lsw = c.lsw := by
  induction n generalizing c with
  | zero => rfl
  | succ n ih => rw [Calendar.advanceN_succ, ih, Calendar.advanceOneMinute_lsw]

/-! ## The tables -/

theorem monthLen_bounds {m : Nat} (h1 : 1 ≤ m) (h2 : m ≤ 12) (leap : Bool) :
    28 ≤ monthLen m leap ∧ monthLen m leap ≤ 31 := by
  interval_cases m <;> cases leap <;> decide

/-- The days before the next month (R181, R182). -/
theorem daysBefore_succ {m : Nat} (h1 : 1 ≤ m) (h2 : m < 12) (leap : Bool) :
    dayOfYear 1 (m + 1) leap = dayOfYear (monthLen m leap) m leap + 1 := by
  interval_cases m <;> cases leap <;> decide

/-- 31 December is day 365 or 366. -/
theorem dayOfYear_last (leap : Bool) : dayOfYear 31 12 leap = 365 + leap.toNat := by
  cases leap <;> decide

theorem dayOfYear_succ (d m : Nat) (leap : Bool) : dayOfYear (d + 1) m leap = dayOfYear d m leap + 1 := by
  unfold dayOfYear
  omega

/-- The range of a day of the year before narrowing to 9 bits (R182). -/
theorem dayOfYear_le {m d : Nat} {leap : Bool} (h1 : 1 ≤ m) (h2 : m ≤ 12) (hd : d ≤ monthLen m leap) :
    dayOfYear d m leap ≤ 365 + leap.toNat := by
  interval_cases m <;> cases leap <;> simp_all [dayOfYear, daysBefore, monthLen] <;> omega

theorem dayOfYear_pos {m d : Nat} (leap : Bool) (h : 1 ≤ d) : 1 ≤ dayOfYear d m leap := by
  unfold dayOfYear
  omega

theorem dayOfYear_mono {d d' : Nat} (m : Nat) (leap : Bool) (h : d ≤ d') :
    dayOfYear d m leap ≤ dayOfYear d' m leap := by
  unfold dayOfYear
  omega

/-- A date of a later month is a later day of the year. -/
theorem dayOfYear_lt_of_month_lt {d d' m m' : Nat} {leap : Bool} (h1 : 1 ≤ m) (hm : m < m') (h2 : m' ≤ 12)
    (hl : d ≤ monthLen m leap) (hd' : 1 ≤ d') : dayOfYear d m leap < dayOfYear d' m' leap := by
  refine Nat.lt_of_lt_of_le ?_ (dayOfYear_mono m' leap hd')
  clear hd'
  induction m', hm using Nat.le_induction with
  | base =>
    rw [daysBefore_succ h1 (by omega)]
    exact Nat.lt_succ_of_le (dayOfYear_mono m leap hl)
  | succ n hn ih =>
    rw [daysBefore_succ (by omega) (by omega)]
    have hlen := (monthLen_bounds (m := n) (by omega) (by omega) leap).1
    have hmono : dayOfYear 1 n leap ≤ dayOfYear (monthLen n leap) n leap := dayOfYear_mono n leap (by omega)
    have hih := ih (by omega)
    omega

/-- A valid calendar's day of the year determines its date. -/
theorem dayOfYear_injective {d m d' m' : Nat} {leap : Bool} (h1 : 1 ≤ m) (h2 : m ≤ 12) (h1' : 1 ≤ m')
    (h2' : m' ≤ 12) (hd : 1 ≤ d) (hl : d ≤ monthLen m leap) (hd' : 1 ≤ d') (hl' : d' ≤ monthLen m' leap)
    (h : dayOfYear d m leap = dayOfYear d' m' leap) : m = m' ∧ d = d' := by
  rcases Nat.lt_trichotomy m m' with hm | rfl | hm
  · exact absurd h (Nat.ne_of_lt (dayOfYear_lt_of_month_lt h1 hm h2' hl hd'))
  · refine ⟨rfl, ?_⟩
    unfold dayOfYear at h
    omega
  · exact absurd h.symm (Nat.ne_of_lt (dayOfYear_lt_of_month_lt h1' hm h2 hl' hd))

/-! ## Days of the century -/

theorem daysBeforeYear_succ (y : Nat) :
    daysBeforeYear y00 (y + 1) = daysBeforeYear y00 y + 365 + (isLeap y00 y).toNat := by
  unfold daysBeforeYear
  rw [leapsBefore]
  omega

theorem daysBeforeYear_mono {a b : Nat} (h : a ≤ b) : daysBeforeYear y00 a ≤ daysBeforeYear y00 b := by
  induction b, h using Nat.le_induction with
  | base => exact Nat.le_refl _
  | succ n _ ih =>
    rw [daysBeforeYear_succ]
    omega

end Sys2Proof.Machine
end

