-- ==== Sys2Proof/Laws/Decode.lean ====
section
/-! SUPPORT. The fields of a command word: the words of R83 taken apart (R72 to R75), and a word put together
again from its fields. -/

namespace Sys2Proof

/-- A field of a word as a number. -/
theorem extractLsb'_toNat_div (v : Word) (lo len : Nat) :
    (v.extractLsb' lo len).toNat = v.toNat / 2 ^ lo % 2 ^ len := by
  rw [BitVec.extractLsb'_toNat, Nat.shiftRight_eq_div_pow]

/-- Words are equal when their fields are: an operation and the rest. -/
theorem word_eq_of_operation {v w : Word} (ho : v.extractLsb' 29 3 = w.extractLsb' 29 3)
    (hr : v.extractLsb' 0 29 = w.extractLsb' 0 29) : v = w := by
  have h1 := congrArg BitVec.toNat ho
  have h2 := congrArg BitVec.toNat hr
  simp only [extractLsb'_toNat_div] at h1 h2
  apply BitVec.eq_of_toNat_eq
  omega

section SetTimeWord

variable (mi : BitVec 6) (hr dy : BitVec 5) (mo : BitVec 4) (yr : BitVec 7) (ds : BitVec 2)

/-- The SET_TIME word of R83. -/
abbrev setTimeWord : Word :=
  0x20000000#32 ||| mi.setWidth 32 <<< 23 ||| hr.setWidth 32 <<< 18 ||| dy.setWidth 32 <<< 13
    ||| mo.setWidth 32 <<< 9 ||| yr.setWidth 32 <<< 2 ||| ds.setWidth 32

theorem setTimeWord_op : (setTimeWord mi hr dy mo yr ds).extractLsb' 29 3 = 1#3 := by
  ext i hi
  interval_cases i <;> simp [setTimeWord]

theorem setTimeWord_mi : (setTimeWord mi hr dy mo yr ds).extractLsb' 23 6 = mi := by
  ext i hi
  interval_cases i <;> simp [setTimeWord]

theorem setTimeWord_hr : (setTimeWord mi hr dy mo yr ds).extractLsb' 18 5 = hr := by
  ext i hi
  interval_cases i <;> simp [setTimeWord]

theorem setTimeWord_dy : (setTimeWord mi hr dy mo yr ds).extractLsb' 13 5 = dy := by
  ext i hi
  interval_cases i <;> simp [setTimeWord]

theorem setTimeWord_mo : (setTimeWord mi hr dy mo yr ds).extractLsb' 9 4 = mo := by
  ext i hi
  interval_cases i <;> simp [setTimeWord]

theorem setTimeWord_yr : (setTimeWord mi hr dy mo yr ds).extractLsb' 2 7 = yr := by
  ext i hi
  interval_cases i <;> simp [setTimeWord]

theorem setTimeWord_ds : (setTimeWord mi hr dy mo yr ds).extractLsb' 0 2 = ds := by
  ext i hi
  interval_cases i <;> simp [setTimeWord]

end SetTimeWord

/-- The SET_TIME word made of a word's own fields is that word, when its operation is SET_TIME. -/
theorem setTimeWord_fields {w : Word} (h : w.extractLsb' 29 3 = 1#3) :
    setTimeWord (w.extractLsb' 23 6) (w.extractLsb' 18 5) (w.extractLsb' 13 5) (w.extractLsb' 9 4)
      (w.extractLsb' 2 7) (w.extractLsb' 0 2) = w := by
  have hb : ∀ i, i < 3 → w.getLsbD (29 + i) = (1#3).getLsbD i := fun i hi => by
    rw [← h, BitVec.getLsbD_extractLsb']
    simp [hi]
  have h0 := hb 0 (by decide)
  have h1 := hb 1 (by decide)
  have h2 := hb 2 (by decide)
  simp at h0 h1 h2
  ext i hi
  interval_cases i <;> simp [setTimeWord, h0, h1, h2]

section AdvanceWord

variable (ah am : BitVec 8)

/-- The ADVANCE word of R83. -/
abbrev advanceWord : Word := 0x40000000#32 ||| ah.setWidth 32 <<< 8 ||| am.setWidth 32

theorem advanceWord_op : (advanceWord ah am).extractLsb' 29 3 = 2#3 := by
  ext i hi
  interval_cases i <;> simp [advanceWord]

theorem advanceWord_reserved : (advanceWord ah am).extractLsb' 16 13 = 0#13 := by
  ext i hi
  interval_cases i <;> simp [advanceWord]

theorem advanceWord_ah : (advanceWord ah am).extractLsb' 8 8 = ah := by
  ext i hi
  interval_cases i <;> simp [advanceWord]

theorem advanceWord_am : (advanceWord ah am).extractLsb' 0 8 = am := by
  ext i hi
  interval_cases i <;> simp [advanceWord]

end AdvanceWord

section BitkindAtWord

variable (idx : BitVec 6)

/-- The BITKIND_AT word of R83. -/
abbrev bitkindAtWord : Word := 0xCC000000#32 ||| idx.setWidth 32

theorem bitkindAtWord_op : (bitkindAtWord idx).extractLsb' 29 3 = 6#3 := by
  ext i hi
  interval_cases i <;> simp [bitkindAtWord]

theorem bitkindAtWord_sel : (bitkindAtWord idx).extractLsb' 26 3 = 3#3 := by
  ext i hi
  interval_cases i <;> simp [bitkindAtWord]

theorem bitkindAtWord_reserved : (bitkindAtWord idx).extractLsb' 6 20 = 0#20 := by
  ext i hi
  interval_cases i <;> simp [bitkindAtWord]

theorem bitkindAtWord_idx : (bitkindAtWord idx).extractLsb' 0 6 = idx := by
  ext i hi
  interval_cases i <;> simp [bitkindAtWord]

end BitkindAtWord

/-- The ADVANCE word of a word's own fields. -/
theorem advanceWord_fields {w : Word} (h : w.extractLsb' 29 3 = 2#3) (hr : w.extractLsb' 16 13 = 0#13) :
    advanceWord (w.extractLsb' 8 8) (w.extractLsb' 0 8) = w := by
  apply word_eq_of_operation
  · rw [advanceWord_op, h]
  · have e1 := congrArg BitVec.toNat (advanceWord_reserved (w.extractLsb' 8 8) (w.extractLsb' 0 8))
    have e2 := congrArg BitVec.toNat (advanceWord_ah (w.extractLsb' 8 8) (w.extractLsb' 0 8))
    have e3 := congrArg BitVec.toNat (advanceWord_am (w.extractLsb' 8 8) (w.extractLsb' 0 8))
    have e4 := congrArg BitVec.toNat hr
    simp only [extractLsb'_toNat_div, BitVec.toNat_ofNat] at e1 e2 e3 e4
    apply BitVec.eq_of_toNat_eq
    simp only [extractLsb'_toNat_div]
    omega

/-- The BITKIND_AT word of a word's own index. -/
theorem bitkindAtWord_fields {w : Word} (h : w.extractLsb' 29 3 = 6#3) (hs : w.extractLsb' 26 3 = 3#3)
    (hr : w.extractLsb' 6 20 = 0#20) : bitkindAtWord (w.extractLsb' 0 6) = w := by
  apply word_eq_of_operation
  · rw [bitkindAtWord_op, h]
  · have e1 := congrArg BitVec.toNat (bitkindAtWord_reserved (w.extractLsb' 0 6))
    have e2 := congrArg BitVec.toNat (bitkindAtWord_sel (w.extractLsb' 0 6))
    have e3 := congrArg BitVec.toNat (bitkindAtWord_idx (w.extractLsb' 0 6))
    have e4 := congrArg BitVec.toNat hr
    have e5 := congrArg BitVec.toNat hs
    simp only [extractLsb'_toNat_div, BitVec.toNat_ofNat] at e1 e2 e3 e4 e5
    apply BitVec.eq_of_toNat_eq
    simp only [extractLsb'_toNat_div]
    omega

/-- The branches of `Decode` (R77) by the operation field. -/
theorem decode_op_cases (w : Word) :
    (w.extractLsb' 29 3 = 7#3 ∧ decode w = .illegal .reservedOpcode) ∨
    ((w.extractLsb' 29 3 = 0#3 ∨ w.extractLsb' 29 3 = 3#3 ∨ w.extractLsb' 29 3 = 4#3 ∨
        w.extractLsb' 29 3 = 5#3) ∧ w.extractLsb' 0 29 ≠ 0#29 ∧ decode w = .illegal .reservedBits) ∨
    (w.extractLsb' 29 3 = 0#3 ∧ w.extractLsb' 0 29 = 0#29 ∧ decode w = .command .nop) ∨
    (w.extractLsb' 29 3 = 3#3 ∧ w.extractLsb' 0 29 = 0#29 ∧ decode w = .command .start) ∨
    (w.extractLsb' 29 3 = 4#3 ∧ w.extractLsb' 0 29 = 0#29 ∧ decode w = .command .stop) ∨
    (w.extractLsb' 29 3 = 5#3 ∧ w.extractLsb' 0 29 = 0#29 ∧ decode w = .command .resume) ∨
    (w.extractLsb' 29 3 = 1#3 ∧ decode w = .command (.setTime (w.extractLsb' 23 6) (w.extractLsb' 18 5)
        (w.extractLsb' 13 5) (w.extractLsb' 9 4) (w.extractLsb' 2 7) (w.extractLsb' 0 2))) ∨
    (w.extractLsb' 29 3 = 2#3 ∧ w.extractLsb' 16 13 ≠ 0#13 ∧ decode w = .illegal .reservedBits) ∨
    (w.extractLsb' 29 3 = 2#3 ∧ w.extractLsb' 16 13 = 0#13 ∧
        decode w = .command (.advance (w.extractLsb' 8 8) (w.extractLsb' 0 8))) ∨
    (w.extractLsb' 29 3 = 6#3 ∧
        decode w = decodeRead (w.extractLsb' 26 3) (w.extractLsb' 6 20) (w.extractLsb' 0 6)) := by
  have hop : ∀ o : BitVec 3, o = 0#3 ∨ o = 1#3 ∨ o = 2#3 ∨ o = 3#3 ∨ o = 4#3 ∨ o = 5#3 ∨ o = 6#3 ∨ o = 7#3 := by
    decide
  rcases hop (w.extractLsb' 29 3) with h | h | h | h | h | h | h | h
  · by_cases hr : w.extractLsb' 0 29 = 0#29 <;> simp [decode, decodeOperation, h, hr]
  · simp [decode, decodeOperation, h]
  · by_cases hr : w.extractLsb' 16 13 = 0#13 <;> simp [decode, decodeOperation, h, hr]
  · by_cases hr : w.extractLsb' 0 29 = 0#29 <;> simp [decode, decodeOperation, h, hr]
  · by_cases hr : w.extractLsb' 0 29 = 0#29 <;> simp [decode, decodeOperation, h, hr]
  · by_cases hr : w.extractLsb' 0 29 = 0#29 <;> simp [decode, decodeOperation, h, hr]
  · simp [decode, h]
  · simp [decode, h]

/-- The branches of format R (R75, R77) by the selector. -/
theorem decodeRead_cases (sel : BitVec 3) (reserved : BitVec 20) (idx : BitVec 6) :
    (5 ≤ sel.toNat ∧ decodeRead sel reserved idx = .illegal .reservedSelector) ∨
    (sel.toNat < 5 ∧ (reserved ≠ 0#20 ∨ (sel ≠ 3#3 ∧ idx ≠ 0#6)) ∧
      decodeRead sel reserved idx = .illegal .reservedBits) ∨
    (sel = 3#3 ∧ reserved = 0#20 ∧ 60 ≤ idx.toNat ∧ decodeRead sel reserved idx = .illegal .indexRange) ∨
    (sel = 3#3 ∧ reserved = 0#20 ∧ idx.toNat < 60 ∧
      decodeRead sel reserved idx = .command (.bitkindAt idx)) ∨
    (sel = 0#3 ∧ reserved = 0#20 ∧ idx = 0#6 ∧ decodeRead sel reserved idx = .command .isActive) ∨
    (sel = 1#3 ∧ reserved = 0#20 ∧ idx = 0#6 ∧ decodeRead sel reserved idx = .command .getTime) ∨
    (sel = 2#3 ∧ reserved = 0#20 ∧ idx = 0#6 ∧ decodeRead sel reserved idx = .command .getDoy) ∨
    (sel = 4#3 ∧ reserved = 0#20 ∧ idx = 0#6 ∧ decodeRead sel reserved idx = .command .getTimer) := by
  have hsel : ∀ o : BitVec 3, o = 0#3 ∨ o = 1#3 ∨ o = 2#3 ∨ o = 3#3 ∨ o = 4#3 ∨ 5 ≤ o.toNat := by decide
  rcases hsel sel with h | h | h | h | h | h
  · subst h
    by_cases hr : reserved = 0#20 <;> by_cases hi : idx = 0#6 <;> simp [decodeRead, hr, hi]
  · subst h
    by_cases hr : reserved = 0#20 <;> by_cases hi : idx = 0#6 <;> simp [decodeRead, hr, hi]
  · subst h
    by_cases hr : reserved = 0#20 <;> by_cases hi : idx = 0#6 <;> simp [decodeRead, hr, hi]
  · subst h
    by_cases hr : reserved = 0#20
    · by_cases hi : 60 ≤ idx.toNat
      · simp [decodeRead, hr, hi]
      · simp [decodeRead, hr, hi]
        omega
    · simp [decodeRead, hr]
  · subst h
    by_cases hr : reserved = 0#20 <;> by_cases hi : idx = 0#6 <;> simp [decodeRead, hr, hi]
  · simp [decodeRead, h]

end Sys2Proof
end

