-- ==== Sys2Proof/Laws/State.lean ====
section
/-! SUPPORT. One lemma per field and update of `State`, true by `rfl`, so that no proof unfolds a record update. -/

namespace Sys2Proof.Machine

variable (s : State)

@[simp] theorem State.respond_cfg (d : Word) : (s.respond d).cfg = s.cfg := rfl
@[simp] theorem State.respond_cal (d : Word) : (s.respond d).cal = s.cal := rfl
@[simp] theorem State.respond_undef (d : Word) : (s.respond d).undef = s.undef := rfl
@[simp] theorem State.respond_frame (d : Word) : (s.respond d).frame = s.frame := rfl
@[simp] theorem State.respond_tcnt (d : Word) : (s.respond d).tcnt = s.tcnt := rfl
@[simp] theorem State.respond_phase (d : Word) : (s.respond d).phase = s.phase := rfl
@[simp] theorem State.respond_pos (d : Word) : (s.respond d).pos = s.pos := rfl
@[simp] theorem State.respond_curk (d : Word) : (s.respond d).curk = s.curk := rfl
@[simp] theorem State.respond_active (d : Word) : (s.respond d).active = s.active := rfl
@[simp] theorem State.respond_rspData (d : Word) : (s.respond d).rspData = d := rfl
@[simp] theorem State.respond_rspErr (d : Word) : (s.respond d).rspErr = false := rfl
@[simp] theorem State.respond_drawNo (d : Word) : (s.respond d).drawNo = s.drawNo := rfl
@[simp] theorem State.respond_inputs (d : Word) : (s.respond d).inputs = s.inputs := rfl

@[simp] theorem State.commandError_cfg (c : Cause) : (s.commandError c).cfg = s.cfg := rfl
@[simp] theorem State.commandError_cal (c : Cause) : (s.commandError c).cal = s.cal := rfl
@[simp] theorem State.commandError_undef (c : Cause) : (s.commandError c).undef = s.undef := rfl
@[simp] theorem State.commandError_frame (c : Cause) : (s.commandError c).frame = s.frame := rfl
@[simp] theorem State.commandError_tcnt (c : Cause) : (s.commandError c).tcnt = s.tcnt := rfl
@[simp] theorem State.commandError_phase (c : Cause) : (s.commandError c).phase = s.phase := rfl
@[simp] theorem State.commandError_pos (c : Cause) : (s.commandError c).pos = s.pos := rfl
@[simp] theorem State.commandError_curk (c : Cause) : (s.commandError c).curk = s.curk := rfl
@[simp] theorem State.commandError_active (c : Cause) : (s.commandError c).active = s.active := rfl
@[simp] theorem State.commandError_rspData (c : Cause) : (s.commandError c).rspData = causeWord c := rfl
@[simp] theorem State.commandError_rspErr (c : Cause) : (s.commandError c).rspErr = true := rfl
@[simp] theorem State.commandError_drawNo (c : Cause) : (s.commandError c).drawNo = s.drawNo := rfl
@[simp] theorem State.commandError_inputs (c : Cause) : (s.commandError c).inputs = s.inputs := rfl

@[simp] theorem State.setActive_cfg (b : Bool) : (s.setActive b).cfg = s.cfg := rfl
@[simp] theorem State.setActive_cal (b : Bool) : (s.setActive b).cal = s.cal := rfl
@[simp] theorem State.setActive_undef (b : Bool) : (s.setActive b).undef = s.undef := rfl
@[simp] theorem State.setActive_frame (b : Bool) : (s.setActive b).frame = s.frame := rfl
@[simp] theorem State.setActive_tcnt (b : Bool) : (s.setActive b).tcnt = s.tcnt := rfl
@[simp] theorem State.setActive_phase (b : Bool) : (s.setActive b).phase = s.phase := rfl
@[simp] theorem State.setActive_pos (b : Bool) : (s.setActive b).pos = s.pos := rfl
@[simp] theorem State.setActive_curk (b : Bool) : (s.setActive b).curk = s.curk := rfl
@[simp] theorem State.setActive_active (b : Bool) : (s.setActive b).active = b := rfl
@[simp] theorem State.setActive_rspData (b : Bool) : (s.setActive b).rspData = s.rspData := rfl
@[simp] theorem State.setActive_rspErr (b : Bool) : (s.setActive b).rspErr = s.rspErr := rfl
@[simp] theorem State.setActive_drawNo (b : Bool) : (s.setActive b).drawNo = s.drawNo := rfl
@[simp] theorem State.setActive_inputs (b : Bool) : (s.setActive b).inputs = s.inputs := rfl

@[simp] theorem State.beginBit_cfg (k : BitKind) : (s.beginBit k).cfg = s.cfg := rfl
@[simp] theorem State.beginBit_cal (k : BitKind) : (s.beginBit k).cal = s.cal := rfl
@[simp] theorem State.beginBit_undef (k : BitKind) : (s.beginBit k).undef = s.undef := rfl
@[simp] theorem State.beginBit_frame (k : BitKind) : (s.beginBit k).frame = s.frame := rfl
@[simp] theorem State.beginBit_tcnt (k : BitKind) : (s.beginBit k).tcnt = 0 := rfl
@[simp] theorem State.beginBit_phase (k : BitKind) : (s.beginBit k).phase = .low := rfl
@[simp] theorem State.beginBit_pos (k : BitKind) : (s.beginBit k).pos = s.pos := rfl
@[simp] theorem State.beginBit_curk (k : BitKind) : (s.beginBit k).curk = k := rfl
@[simp] theorem State.beginBit_active (k : BitKind) : (s.beginBit k).active = s.active := rfl
@[simp] theorem State.beginBit_rspData (k : BitKind) : (s.beginBit k).rspData = s.rspData := rfl
@[simp] theorem State.beginBit_rspErr (k : BitKind) : (s.beginBit k).rspErr = s.rspErr := rfl
@[simp] theorem State.beginBit_drawNo (k : BitKind) : (s.beginBit k).drawNo = s.drawNo := rfl
@[simp] theorem State.beginBit_inputs (k : BitKind) : (s.beginBit k).inputs = s.inputs := rfl

@[simp] theorem State.setPos_cfg (p : Fin 60) : (s.setPos p).cfg = s.cfg := rfl
@[simp] theorem State.setPos_cal (p : Fin 60) : (s.setPos p).cal = s.cal := rfl
@[simp] theorem State.setPos_undef (p : Fin 60) : (s.setPos p).undef = s.undef := rfl
@[simp] theorem State.setPos_frame (p : Fin 60) : (s.setPos p).frame = s.frame := rfl
@[simp] theorem State.setPos_tcnt (p : Fin 60) : (s.setPos p).tcnt = s.tcnt := rfl
@[simp] theorem State.setPos_phase (p : Fin 60) : (s.setPos p).phase = s.phase := rfl
@[simp] theorem State.setPos_pos (p : Fin 60) : (s.setPos p).pos = p := rfl
@[simp] theorem State.setPos_curk (p : Fin 60) : (s.setPos p).curk = s.curk := rfl
@[simp] theorem State.setPos_active (p : Fin 60) : (s.setPos p).active = s.active := rfl
@[simp] theorem State.setPos_rspData (p : Fin 60) : (s.setPos p).rspData = s.rspData := rfl
@[simp] theorem State.setPos_rspErr (p : Fin 60) : (s.setPos p).rspErr = s.rspErr := rfl
@[simp] theorem State.setPos_drawNo (p : Fin 60) : (s.setPos p).drawNo = s.drawNo := rfl
@[simp] theorem State.setPos_inputs (p : Fin 60) : (s.setPos p).inputs = s.inputs := rfl

@[simp] theorem State.setCalendar_cfg (c : Calendar) (u : Bool) : (s.setCalendar c u).cfg = s.cfg := rfl
@[simp] theorem State.setCalendar_cal (c : Calendar) (u : Bool) : (s.setCalendar c u).cal = c := rfl
@[simp] theorem State.setCalendar_undef (c : Calendar) (u : Bool) : (s.setCalendar c u).undef = u := rfl
@[simp] theorem State.setCalendar_frame (c : Calendar) (u : Bool) : (s.setCalendar c u).frame = s.frame := rfl
@[simp] theorem State.setCalendar_tcnt (c : Calendar) (u : Bool) : (s.setCalendar c u).tcnt = s.tcnt := rfl
@[simp] theorem State.setCalendar_phase (c : Calendar) (u : Bool) : (s.setCalendar c u).phase = s.phase := rfl
@[simp] theorem State.setCalendar_pos (c : Calendar) (u : Bool) : (s.setCalendar c u).pos = s.pos := rfl
@[simp] theorem State.setCalendar_curk (c : Calendar) (u : Bool) : (s.setCalendar c u).curk = s.curk := rfl
@[simp] theorem State.setCalendar_active (c : Calendar) (u : Bool) : (s.setCalendar c u).active = s.active := rfl
@[simp] theorem State.setCalendar_rspData (c : Calendar) (u : Bool) : (s.setCalendar c u).rspData = s.rspData := rfl
@[simp] theorem State.setCalendar_rspErr (c : Calendar) (u : Bool) : (s.setCalendar c u).rspErr = s.rspErr := rfl
@[simp] theorem State.setCalendar_drawNo (c : Calendar) (u : Bool) : (s.setCalendar c u).drawNo = s.drawNo := rfl
@[simp] theorem State.setCalendar_inputs (c : Calendar) (u : Bool) : (s.setCalendar c u).inputs = s.inputs := rfl

@[simp] theorem State.setInputs_cfg (l : List PortSample) : (s.setInputs l).cfg = s.cfg := rfl
@[simp] theorem State.setInputs_cal (l : List PortSample) : (s.setInputs l).cal = s.cal := rfl
@[simp] theorem State.setInputs_undef (l : List PortSample) : (s.setInputs l).undef = s.undef := rfl
@[simp] theorem State.setInputs_frame (l : List PortSample) : (s.setInputs l).frame = s.frame := rfl
@[simp] theorem State.setInputs_tcnt (l : List PortSample) : (s.setInputs l).tcnt = s.tcnt := rfl
@[simp] theorem State.setInputs_phase (l : List PortSample) : (s.setInputs l).phase = s.phase := rfl
@[simp] theorem State.setInputs_pos (l : List PortSample) : (s.setInputs l).pos = s.pos := rfl
@[simp] theorem State.setInputs_curk (l : List PortSample) : (s.setInputs l).curk = s.curk := rfl
@[simp] theorem State.setInputs_active (l : List PortSample) : (s.setInputs l).active = s.active := rfl
@[simp] theorem State.setInputs_rspData (l : List PortSample) : (s.setInputs l).rspData = s.rspData := rfl
@[simp] theorem State.setInputs_rspErr (l : List PortSample) : (s.setInputs l).rspErr = s.rspErr := rfl
@[simp] theorem State.setInputs_drawNo (l : List PortSample) : (s.setInputs l).drawNo = s.drawNo := rfl
@[simp] theorem State.setInputs_inputs (l : List PortSample) : (s.setInputs l).inputs = l := rfl

@[simp] theorem State.setTcnt_cfg (n : Nat) : (s.setTcnt n).cfg = s.cfg := rfl
@[simp] theorem State.setTcnt_cal (n : Nat) : (s.setTcnt n).cal = s.cal := rfl
@[simp] theorem State.setTcnt_undef (n : Nat) : (s.setTcnt n).undef = s.undef := rfl
@[simp] theorem State.setTcnt_frame (n : Nat) : (s.setTcnt n).frame = s.frame := rfl
@[simp] theorem State.setTcnt_tcnt (n : Nat) : (s.setTcnt n).tcnt = BitVec.ofNat 16 n := rfl
@[simp] theorem State.setTcnt_phase (n : Nat) : (s.setTcnt n).phase = s.phase := rfl
@[simp] theorem State.setTcnt_pos (n : Nat) : (s.setTcnt n).pos = s.pos := rfl
@[simp] theorem State.setTcnt_curk (n : Nat) : (s.setTcnt n).curk = s.curk := rfl
@[simp] theorem State.setTcnt_active (n : Nat) : (s.setTcnt n).active = s.active := rfl
@[simp] theorem State.setTcnt_rspData (n : Nat) : (s.setTcnt n).rspData = s.rspData := rfl
@[simp] theorem State.setTcnt_rspErr (n : Nat) : (s.setTcnt n).rspErr = s.rspErr := rfl
@[simp] theorem State.setTcnt_drawNo (n : Nat) : (s.setTcnt n).drawNo = s.drawNo := rfl
@[simp] theorem State.setTcnt_inputs (n : Nat) : (s.setTcnt n).inputs = s.inputs := rfl

@[simp] theorem State.setPhase_cfg (p : Phase) : (s.setPhase p).cfg = s.cfg := rfl
@[simp] theorem State.setPhase_cal (p : Phase) : (s.setPhase p).cal = s.cal := rfl
@[simp] theorem State.setPhase_undef (p : Phase) : (s.setPhase p).undef = s.undef := rfl
@[simp] theorem State.setPhase_frame (p : Phase) : (s.setPhase p).frame = s.frame := rfl
@[simp] theorem State.setPhase_tcnt (p : Phase) : (s.setPhase p).tcnt = s.tcnt := rfl
@[simp] theorem State.setPhase_phase (p : Phase) : (s.setPhase p).phase = p := rfl
@[simp] theorem State.setPhase_pos (p : Phase) : (s.setPhase p).pos = s.pos := rfl
@[simp] theorem State.setPhase_curk (p : Phase) : (s.setPhase p).curk = s.curk := rfl
@[simp] theorem State.setPhase_active (p : Phase) : (s.setPhase p).active = s.active := rfl
@[simp] theorem State.setPhase_rspData (p : Phase) : (s.setPhase p).rspData = s.rspData := rfl
@[simp] theorem State.setPhase_rspErr (p : Phase) : (s.setPhase p).rspErr = s.rspErr := rfl
@[simp] theorem State.setPhase_drawNo (p : Phase) : (s.setPhase p).drawNo = s.drawNo := rfl
@[simp] theorem State.setPhase_inputs (p : Phase) : (s.setPhase p).inputs = s.inputs := rfl

@[simp] theorem State.rederive_cfg : (s.rederive).cfg = s.cfg := by
  unfold State.rederive; split <;> rfl
@[simp] theorem State.rederive_cal : (s.rederive).cal = s.cal := by
  unfold State.rederive; split <;> rfl
@[simp] theorem State.rederive_undef : (s.rederive).undef = s.undef := by
  unfold State.rederive; split <;> rfl
@[simp] theorem State.rederive_tcnt : (s.rederive).tcnt = s.tcnt := by
  unfold State.rederive; split <;> rfl
@[simp] theorem State.rederive_phase : (s.rederive).phase = s.phase := by
  unfold State.rederive; split <;> rfl
@[simp] theorem State.rederive_pos : (s.rederive).pos = s.pos := by
  unfold State.rederive; split <;> rfl
@[simp] theorem State.rederive_curk : (s.rederive).curk = s.curk := by
  unfold State.rederive; split <;> rfl
@[simp] theorem State.rederive_active : (s.rederive).active = s.active := by
  unfold State.rederive; split <;> rfl
@[simp] theorem State.rederive_rspData : (s.rederive).rspData = s.rspData := by
  unfold State.rederive; split <;> rfl
@[simp] theorem State.rederive_rspErr : (s.rederive).rspErr = s.rspErr := by
  unfold State.rederive; split <;> rfl
@[simp] theorem State.rederive_inputs : (s.rederive).inputs = s.inputs := by
  unfold State.rederive; split <;> rfl

@[simp] theorem State.advanceCalendar_cfg (n : Nat): (s.advanceCalendar n).cfg = s.cfg := by
  unfold State.advanceCalendar; split <;> rfl
@[simp] theorem State.advanceCalendar_frame (n : Nat): (s.advanceCalendar n).frame = s.frame := by
  unfold State.advanceCalendar; split <;> rfl
@[simp] theorem State.advanceCalendar_tcnt (n : Nat): (s.advanceCalendar n).tcnt = s.tcnt := by
  unfold State.advanceCalendar; split <;> rfl
@[simp] theorem State.advanceCalendar_phase (n : Nat): (s.advanceCalendar n).phase = s.phase := by
  unfold State.advanceCalendar; split <;> rfl
@[simp] theorem State.advanceCalendar_pos (n : Nat): (s.advanceCalendar n).pos = s.pos := by
  unfold State.advanceCalendar; split <;> rfl
@[simp] theorem State.advanceCalendar_curk (n : Nat): (s.advanceCalendar n).curk = s.curk := by
  unfold State.advanceCalendar; split <;> rfl
@[simp] theorem State.advanceCalendar_active (n : Nat): (s.advanceCalendar n).active = s.active := by
  unfold State.advanceCalendar; split <;> rfl
@[simp] theorem State.advanceCalendar_rspData (n : Nat): (s.advanceCalendar n).rspData = s.rspData := by
  unfold State.advanceCalendar; split <;> rfl
@[simp] theorem State.advanceCalendar_rspErr (n : Nat): (s.advanceCalendar n).rspErr = s.rspErr := by
  unfold State.advanceCalendar; split <;> rfl
@[simp] theorem State.advanceCalendar_drawNo (n : Nat): (s.advanceCalendar n).drawNo = s.drawNo := by
  unfold State.advanceCalendar; split <;> rfl
@[simp] theorem State.advanceCalendar_inputs (n : Nat): (s.advanceCalendar n).inputs = s.inputs := by
  unfold State.advanceCalendar; split <;> rfl

@[simp] theorem State.afterRead_cfg : (s.afterRead).cfg = s.cfg := by
  unfold State.afterRead; split <;> rfl
@[simp] theorem State.afterRead_cal : (s.afterRead).cal = s.cal := by
  unfold State.afterRead; split <;> rfl
@[simp] theorem State.afterRead_undef : (s.afterRead).undef = s.undef := by
  unfold State.afterRead; split <;> rfl
@[simp] theorem State.afterRead_frame : (s.afterRead).frame = s.frame := by
  unfold State.afterRead; split <;> rfl
@[simp] theorem State.afterRead_tcnt : (s.afterRead).tcnt = s.tcnt := by
  unfold State.afterRead; split <;> rfl
@[simp] theorem State.afterRead_phase : (s.afterRead).phase = s.phase := by
  unfold State.afterRead; split <;> rfl
@[simp] theorem State.afterRead_pos : (s.afterRead).pos = s.pos := by
  unfold State.afterRead; split <;> rfl
@[simp] theorem State.afterRead_curk : (s.afterRead).curk = s.curk := by
  unfold State.afterRead; split <;> rfl
@[simp] theorem State.afterRead_active : (s.afterRead).active = s.active := by
  unfold State.afterRead; split <;> rfl
@[simp] theorem State.afterRead_rspData : (s.afterRead).rspData = s.rspData := by
  unfold State.afterRead; split <;> rfl
@[simp] theorem State.afterRead_rspErr : (s.afterRead).rspErr = s.rspErr := by
  unfold State.afterRead; split <;> rfl
@[simp] theorem State.afterRead_inputs : (s.afterRead).inputs = s.inputs := by
  unfold State.afterRead; split <;> rfl

@[simp] theorem State.advanceOneMinute_cfg : (s.advanceOneMinute).cfg = s.cfg := by
  simp [State.advanceOneMinute]
@[simp] theorem State.advanceOneMinute_tcnt : (s.advanceOneMinute).tcnt = s.tcnt := by
  simp [State.advanceOneMinute]
@[simp] theorem State.advanceOneMinute_phase : (s.advanceOneMinute).phase = s.phase := by
  simp [State.advanceOneMinute]
@[simp] theorem State.advanceOneMinute_pos : (s.advanceOneMinute).pos = s.pos := by
  simp [State.advanceOneMinute]
@[simp] theorem State.advanceOneMinute_curk : (s.advanceOneMinute).curk = s.curk := by
  simp [State.advanceOneMinute]
@[simp] theorem State.advanceOneMinute_active : (s.advanceOneMinute).active = s.active := by
  simp [State.advanceOneMinute]
@[simp] theorem State.advanceOneMinute_rspData : (s.advanceOneMinute).rspData = s.rspData := by
  simp [State.advanceOneMinute]
@[simp] theorem State.advanceOneMinute_rspErr : (s.advanceOneMinute).rspErr = s.rspErr := by
  simp [State.advanceOneMinute]
@[simp] theorem State.advanceOneMinute_inputs : (s.advanceOneMinute).inputs = s.inputs := by
  simp [State.advanceOneMinute]

@[simp] theorem State.endBit_cfg : (s.endBit).cfg = s.cfg := by
  unfold State.endBit; dsimp only; split <;> simp
@[simp] theorem State.endBit_active : (s.endBit).active = s.active := by
  unfold State.endBit; dsimp only; split <;> simp
@[simp] theorem State.endBit_rspData : (s.endBit).rspData = s.rspData := by
  unfold State.endBit; dsimp only; split <;> simp
@[simp] theorem State.endBit_rspErr : (s.endBit).rspErr = s.rspErr := by
  unfold State.endBit; dsimp only; split <;> simp
@[simp] theorem State.endBit_inputs : (s.endBit).inputs = s.inputs := by
  unfold State.endBit; dsimp only; split <;> simp

/-- `AdvanceN` leaves the ghost flag as it was (R141, R184). -/
@[simp] theorem State.advanceCalendar_undef (n : Nat) : (s.advanceCalendar n).undef = s.undef := by
  unfold State.advanceCalendar
  cases h : s.undef <;> simp [h]

@[simp] theorem State.advanceOneMinute_undef : s.advanceOneMinute.undef = s.undef := by
  simp [State.advanceOneMinute]

@[simp] theorem State.setInputs_self : s.setInputs s.inputs = s := rfl
@[simp] theorem State.setInputs_setInputs (l l' : List PortSample) :
    (s.setInputs l).setInputs l' = s.setInputs l' := rfl

end Sys2Proof.Machine
end

