-- ==== Sys2Proof/Laws/Ops.lean ====
section
/-! SUPPORT. One lemma per shared operation that says everything it can do, for proofs to cite instead of
unfolding it. -/

namespace Sys2Proof.Machine

variable (s : State)

/-- R170: with `UNDEF = 0` the frame is `Encode` of the calendar and nothing else changes. -/
theorem State.rederive_defined (h : s.undef = false) :
    s.rederive = { s with frame := encodeFrame s.cal s.cfg.dut1Sign } := by
  simp [State.rederive, h]

/-- R172: with `UNDEF = 1` the frame is the next draw and the draw is used up. -/
theorem State.rederive_undefined (h : s.undef = true) :
    s.rederive = { s with frame := drawnFrame (Config.drawFrame s.drawNo), drawNo := s.drawNo + 1 } := by
  simp [State.rederive, h]

/-- What a re-derivation can do. -/
theorem State.rederive_cases :
    (s.undef = false ∧ s.rederive = { s with frame := encodeFrame s.cal s.cfg.dut1Sign }) ∨
    (s.undef = true ∧
      s.rederive = { s with frame := drawnFrame (Config.drawFrame s.drawNo), drawNo := s.drawNo + 1 }) := by
  by_cases h : s.undef = true
  · exact .inr ⟨h, s.rederive_undefined h⟩
  · exact .inl ⟨Bool.eq_false_of_not_eq_true h, s.rederive_defined (Bool.eq_false_of_not_eq_true h)⟩

theorem State.advanceCalendar_defined (n : Nat) (h : s.undef = false) :
    s.advanceCalendar n = { s with cal := s.cal.advanceN s.cfg.leapY00 n } := by
  simp [State.advanceCalendar, State.setCalendar, h]

theorem State.advanceCalendar_undefined (n : Nat) (h : s.undef = true) : s.advanceCalendar n = s := by
  simp [State.advanceCalendar, h]

/-- R184 with `UNDEF = 0`. -/
theorem State.advanceOneMinute_defined (h : s.undef = false) :
    s.advanceOneMinute =
      { s with
        cal := s.cal.advanceOneMinute s.cfg.leapY00
        frame := encodeFrame (s.cal.advanceOneMinute s.cfg.leapY00) s.cfg.dut1Sign } := by
  simp [State.advanceOneMinute, State.advanceCalendar_defined, State.rederive, h, Calendar.advanceN]

/-- R184 with `UNDEF = 1`: the frame is drawn anew, the calendar stays undefined. -/
theorem State.advanceOneMinute_undefined (h : s.undef = true) :
    s.advanceOneMinute =
      { s with frame := drawnFrame (Config.drawFrame s.drawNo), drawNo := s.drawNo + 1 } := by
  simp [State.advanceOneMinute, State.advanceCalendar_undefined, State.rederive, h]

theorem State.afterRead_defined (h : s.undef = false) : s.afterRead = s := by simp [State.afterRead, h]

theorem State.afterRead_undefined (h : s.undef = true) : s.afterRead = { s with drawNo := s.drawNo + 1 } := by
  simp [State.afterRead, h]

theorem State.readTime_defined (h : s.undef = false) :
    s.readTime =
      { min := s.cal.min, hour := s.cal.hour, day := s.cal.day, mon := s.cal.mon, year := s.cal.year,
        doy := s.cal.doy, leap := s.cal.leap } := by
  simp [State.readTime, h]

theorem State.readTime_undefined (h : s.undef = true) :
    s.readTime =
      { min := Config.drawMin s.drawNo, hour := Config.drawHour s.drawNo, day := Config.drawDay s.drawNo,
        mon := Config.drawMon s.drawNo, year := Config.drawYear s.drawNo, doy := Config.drawDoy s.drawNo,
        leap := Config.drawLeap s.drawNo } := by
  simp [State.readTime, h]

/-- The branches of R121 and when each is taken. -/
theorem tickEffect_cases (c : Config) (active : Bool) (curk : BitKind) (tcnt : BitVec 16) :
    (tickEffect c active curk tcnt = .ignored ∧ active = false) ∨
    (tickEffect c active curk tcnt = .toHigh ∧ active = true ∧ tcnt.toNat + 1 = c.lowDur curk) ∨
    (tickEffect c active curk tcnt = .endOfBit ∧ active = true ∧ tcnt.toNat + 1 ≠ c.lowDur curk ∧
      c.e ≤ tcnt.toNat + 1) ∨
    (tickEffect c active curk tcnt = .count ∧ active = true ∧ tcnt.toNat + 1 ≠ c.lowDur curk ∧
      tcnt.toNat + 1 < c.e) := by
  unfold tickEffect nextCount
  cases active
  · simp
  · by_cases h1 : tcnt.toNat + 1 = c.lowDur curk
    · simp [h1]
    · by_cases h2 : c.e ≤ tcnt.toNat + 1
      · simp [h1, h2]
      · simp [h1, h2]; omega

/-- What a well-formed configuration gives the timer (R6). -/
theorem Config.wellFormed_bounds {c : Config} (h : c.wellFormed = true) :
    c.e ≤ 65535 ∧ ∀ k, 1 ≤ c.lowDur k ∧ c.lowDur k < c.e := by
  simp only [Config.wellFormed, Config.strictlyInside, Bool.and_eq_true, decide_eq_true_eq] at h
  refine ⟨by omega, fun k => ?_⟩
  cases k <;> simp only [Config.lowDur] <;> omega

/-- The one event a step takes, by the sample at the head of the inputs (R3). -/
theorem State.takeEvent_nil (h : s.inputs = []) : s.takeEvent = (none, s) := by
  unfold State.takeEvent
  rw [h]

theorem State.takeEvent_reset {t : Bool} {c : Option Word} {rest : List PortSample}
    (h : s.inputs = { rst := true, tick := t, cmd := c } :: rest) :
    s.takeEvent = (some .reset, s.setInputs rest) := by
  unfold State.takeEvent
  rw [h]
  rfl

theorem State.takeEvent_idle {rest : List PortSample} (h : s.inputs = {} :: rest) :
    s.takeEvent = (none, s.setInputs rest) := by
  unfold State.takeEvent
  rw [h]
  rfl

theorem State.takeEvent_tick {rest : List PortSample} (h : s.inputs = { tick := true } :: rest) :
    s.takeEvent = (some .tick, s.setInputs rest) := by
  unfold State.takeEvent
  rw [h]
  rfl

theorem State.takeEvent_command {w : Word} {rest : List PortSample}
    (h : s.inputs = { cmd := some w } :: rest) : s.takeEvent = (some (.cmd w), s.setInputs rest) := by
  unfold State.takeEvent
  rw [h]
  rfl

/-- A command and a tick in one cycle: the command is taken and the tick stays for the next step. -/
theorem State.takeEvent_both {w : Word} {rest : List PortSample}
    (h : s.inputs = { tick := true, cmd := some w } :: rest) :
    s.takeEvent = (some (.cmd w), s.setInputs ({ tick := true } :: rest)) := by
  unfold State.takeEvent
  rw [h]
  rfl

/-- Whatever the ports present, a step takes at most one event and changes only the inputs by taking it. -/
theorem State.takeEvent_setInputs : ∃ l, s.takeEvent.2 = s.setInputs l := by
  unfold State.takeEvent
  split
  · exact ⟨s.inputs, rfl⟩
  · split <;> exact ⟨_, rfl⟩

end Sys2Proof.Machine
end

