-- ==== Sys2Proof/Laws/Exec.lean ====
section
/-! SUPPORT. Every meaning answers a next state (`00_scope.md` R4), as an equation; the inputs still to come
influence no meaning. -/

namespace Sys2Proof.Machine

/-- The state `exec` answers. -/
def execNext (i : Instr) (s : State) : State :=
  match exec i s with
  | .next t => t
  | .fault _ => s
  | .refused _ => s

theorem execNext_nop (s : State) : execNext .nop s = s.respond 0 := rfl
theorem execNext_setTime (mi : BitVec 6) (hr dy : BitVec 5) (mo : BitVec 4) (yr : BitVec 7) (ds : BitVec 2)
    (s : State) : execNext (.setTime mi hr dy mo yr ds) s =
      (((setTimeCalendar mi hr dy mo yr ds s).rederive.setPos 0).beginBit .marker).respond 0 := rfl
theorem execNext_advance (ah am : BitVec 8) (s : State) : execNext (.advance ah am) s =
    (s.advanceCalendar (advanceMinutes ah am)).rederive.respond 0 := rfl
theorem execNext_start (s : State) : execNext .start s =
    ((s.setActive true).beginBit (s.kindAt s.pos)).respond 0 := rfl
theorem execNext_stop (s : State) : execNext .stop s = (s.setActive false).respond 0 := rfl
theorem execNext_resume (s : State) : execNext .resume s = (s.setActive true).respond 0 := rfl
theorem execNext_isActive (s : State) : execNext .isActive s = s.respond (activeWord s.active) := rfl
theorem execNext_getTime (s : State) : execNext .getTime s = s.afterRead.respond
    (timeWord s.readTime.min s.readTime.hour s.readTime.day s.readTime.mon s.readTime.year s.cal.dst) := rfl
theorem execNext_getDoy (s : State) : execNext .getDoy s =
    s.afterRead.respond (doyWord s.readTime.doy s.readTime.leap s.cal.lsw) := rfl
theorem execNext_bitkindAt (idx : BitVec 6) (s : State) : execNext (.bitkindAt idx) s =
    match framePosition idx with
    | some i => s.respond (kindWord (s.kindAt i))
    | none => s.commandError .indexRange := rfl
theorem execNext_getTimer (s : State) : execNext .getTimer s =
    s.respond (timerWord s.curk s.active s.phase s.pos s.tcnt) := rfl
theorem execNext_tick (s : State) : execNext .tick s =
    match tickEffect s.cfg s.active s.curk s.tcnt with
    | .ignored => s
    | .toHigh => (s.setPhase .high).setTcnt (nextCount s.tcnt)
    | .endOfBit => s.endBit
    | .count => s.setTcnt (nextCount s.tcnt) := rfl
theorem execNext_reset (s : State) : execNext .reset s =
    { State.resetFor s.cfg with drawNo := s.drawNo, inputs := s.inputs } := rfl

/-- No meaning stops. -/
theorem exec_eq_next (i : Instr) (s : State) : exec i s = .next (execNext i s) := by
  cases i <;> rfl

/-- No event stops. -/
theorem runEvent_next (ev : Option Event) (s : State) : ∃ t, runEvent ev s = .next t := by
  match ev with
  | none => exact ⟨s, rfl⟩
  | some .reset => exact ⟨_, exec_eq_next .reset s⟩
  | some .tick => exact ⟨_, exec_eq_next .tick s⟩
  | some (.cmd w) =>
    unfold runEvent runWord
    dsimp only
    split
    · exact ⟨_, exec_eq_next _ s⟩
    · exact ⟨_, rfl⟩

theorem State.rederive_setInputs (s : State) (l : List PortSample) :
    (s.setInputs l).rederive = s.rederive.setInputs l := by
  unfold State.rederive
  cases h : s.undef <;> simp [h] <;> rfl

theorem State.advanceCalendar_setInputs (s : State) (n : Nat) (l : List PortSample) :
    (s.setInputs l).advanceCalendar n = (s.advanceCalendar n).setInputs l := by
  unfold State.advanceCalendar
  cases h : s.undef <;> simp [h]
  rfl

theorem State.endBit_setInputs (s : State) (l : List PortSample) :
    (s.setInputs l).endBit = s.endBit.setInputs l := by
  have h : ∀ t : State, (t.setInputs l).advanceOneMinute = t.advanceOneMinute.setInputs l := fun t => by
    simp [State.advanceOneMinute, State.advanceCalendar_setInputs, State.rederive_setInputs]
  unfold State.endBit
  dsimp only
  by_cases hp : nextPosition s.pos = 0
  · simp only [State.setInputs_pos, hp, if_true]
    have : (s.setInputs l).setPos 0 = (s.setPos 0).setInputs l := rfl
    rw [this, h]
    rfl
  · simp only [State.setInputs_pos, hp, if_false]
    rfl

/-- A meaning neither reads nor writes the inputs still to come. -/
theorem execNext_setInputs (i : Instr) (s : State) (l : List PortSample) :
    execNext i (s.setInputs l) = (execNext i s).setInputs l := by
  cases i with
  | setTime mi hr dy mo yr ds =>
    have h : setTimeCalendar mi hr dy mo yr ds (s.setInputs l) =
        (setTimeCalendar mi hr dy mo yr ds s).setInputs l := by
      by_cases hu : undefAfterSet s.cfg mi hr dy mo yr = true <;> simp [setTimeCalendar, hu] <;> rfl
    rw [execNext_setTime, execNext_setTime, h, State.rederive_setInputs]
    rfl
  | advance ah am =>
    rw [execNext_advance, execNext_advance, State.advanceCalendar_setInputs, State.rederive_setInputs]
    rfl
  | getTime => 
    rw [execNext_getTime, execNext_getTime]
    unfold State.afterRead State.readTime
    cases h : s.undef <;> simp [h] <;> rfl
  | getDoy => 
    rw [execNext_getDoy, execNext_getDoy]
    unfold State.afterRead State.readTime
    cases h : s.undef <;> simp [h] <;> rfl
  | bitkindAt idx =>
    rw [execNext_bitkindAt, execNext_bitkindAt]
    split <;> rfl
  | tick =>
    rw [execNext_tick, execNext_tick]
    dsimp only [State.setInputs_cfg, State.setInputs_active, State.setInputs_curk, State.setInputs_tcnt]
    split
    · rfl
    · rfl
    · exact s.endBit_setInputs l
    · rfl
  | nop => rfl
  | start => rfl
  | stop => rfl
  | resume => rfl
  | isActive => rfl
  | getTimer => rfl
  | reset => rfl

/-- One step of a block whose configuration is accepted: the event taken, run. -/
theorem step_wellFormed (s : State) (h : s.cfg.wellFormed = true) :
    step s = runEvent s.takeEvent.1 s.takeEvent.2 := by
  unfold step
  simp [h]

/-- A step on a cycle that presents a tick and nothing else. -/
theorem step_tick (s : State) {rest : List PortSample} (h : s.cfg.wellFormed = true)
    (hi : s.inputs = { tick := true } :: rest) : step s = .next (execNext .tick (s.setInputs rest)) := by
  rw [step_wellFormed s h, State.takeEvent_tick s hi]
  exact exec_eq_next .tick _

@[simp] theorem run_zero (s : State) : run 0 s = .next s := rfl

/-- A run goes on from the state its first step answers. -/
theorem run_succ_of_step {s t : State} (n : Nat) (h : step s = .next t) : run (n + 1) s = run n t := by
  rw [run, h]

/-- A run of `m + n` steps that goes on for `m` steps. -/
theorem run_add (m n : Nat) (s t : State) (h : run m s = .next t) : run (m + n) s = run n t := by
  induction m generalizing s with
  | zero =>
    rw [run_zero, Host.Outcome.next.injEq] at h
    rw [Nat.zero_add, h]
  | succ m ih =>
    rw [run] at h
    rw [Nat.succ_add]
    cases hs : step s with
    | next u =>
      rw [hs] at h
      rw [run_succ_of_step (m + n) hs]
      exact ih u h
    | fault r => cases r
    | refused r => simp [hs] at h

/-- A step that takes an event adds the outputs after it to the trace. -/
theorem trace_succ_of_event {s t : State} {ev : Event} (n : Nat) (h : step s = .next t)
    (he : s.takeEvent.1 = some ev) : trace (n + 1) s = t.outputs :: trace n t := by
  simp only [trace, h, he]

/-- A step that takes no event adds nothing to the trace. -/
theorem trace_succ_of_no_event {s t : State} (n : Nat) (h : step s = .next t) (he : s.takeEvent.1 = none) :
    trace (n + 1) s = trace n t := by
  simp only [trace, h, he]

/-- The event a sample presents in a cycle of its own is the one the step takes. -/
theorem State.takeEvent_sample (s : State) (ev : Event) (rest : List PortSample) :
    (s.setInputs (ev.sample :: rest)).takeEvent = (some ev, s.setInputs rest) := by
  cases ev <;> rfl

/-- `run` is the host's own iteration of the machine's step. -/
theorem run_eq_core_run (n : Nat) (s : State) : run n s = Host.Core.run Sys2Proof.core n s := by
  induction n generalizing s with
  | zero => rfl
  | succ n ih =>
    rw [run]
    cases hs : step s with
    | next t =>
      have hc : Sys2Proof.core.step s = .next t := hs
      simp only [Host.Core.run, hc]
      exact ih t
    | fault r => cases r
    | refused r =>
      have hc : Sys2Proof.core.step s = .refused r := hs
      simp only [Host.Core.run, hc]
      rfl

end Sys2Proof.Machine
end

