-- ==== Sys2Proof/Laws/Frame.lean ====
section
/-! SUPPORT. Reading a position of a frame (`43_field_derivation.md` R160 to R172). -/

namespace Sys2Proof.Machine

theorem encodeFrame_get (c : Calendar) (sign : Dut1Sign) (i : Fin 60) :
    (encodeFrame c sign)[i] = encodeAt c sign i.val := by
  simp [encodeFrame]

theorem drawnFrame_get (draws : BitVec 60) (i : Fin 60) :
    (drawnFrame draws)[i] = if i.val ∈ markerSet then .marker else dataKind (draws.getLsbD i.val) := by
  simp [drawnFrame]

theorem dataKind_ne_marker (b : Bool) : dataKind b ≠ .marker := by
  cases b <;> decide

/-- `Greedy` assigns data kinds only (R162). -/
theorem greedy_ne_marker (t : List (Nat × Nat)) (r : Nat) : ∀ x ∈ greedy r t, x.2 ≠ .marker := by
  induction t generalizing r with
  | nil => simp [greedy]
  | cons p t ih =>
    intro x hx
    unfold greedy at hx
    split at hx
    · rcases List.mem_cons.mp hx with rfl | hx
      · simp
      · exact ih _ x hx
    · rcases List.mem_cons.mp hx with rfl | hx
      · simp
      · exact ih _ x hx

/-- Every field assigns data kinds only (R163 to R168). -/
theorem fieldBits_ne_marker (c : Calendar) (sign : Dut1Sign) : ∀ x ∈ fieldBits c sign, x.2 ≠ .marker := by
  intro x hx
  simp only [fieldBits, List.mem_append] at hx
  rcases hx with ((((hx | hx) | hx) | hx) | hx) | hx
  · exact greedy_ne_marker _ _ x hx
  · exact greedy_ne_marker _ _ x hx
  · exact greedy_ne_marker _ _ x hx
  · exact greedy_ne_marker _ _ x hx
  · cases sign <;> simp [dut1Bits] at hx <;> rcases hx with rfl | rfl | rfl | rfl | rfl | rfl | rfl <;> decide
  · simp only [miscBits, List.mem_cons, List.not_mem_nil, or_false] at hx
    rcases hx with rfl | rfl | rfl | rfl <;> exact dataKind_ne_marker _

/-- A value found in an association list is one of its values. -/
theorem mem_of_lookup {l : List (Nat × BitKind)} {i : Nat} {k : BitKind} (h : l.lookup i = some k) :
    (i, k) ∈ l := by
  induction l with
  | nil => simp at h
  | cons p l ih =>
    obtain ⟨a, b⟩ := p
    rw [List.lookup_cons] at h
    by_cases ha : i = a
    · subst ha
      simp at h
      simp [h]
    · have : (i == a) = false := by simpa using ha
      simp only [this] at h
      exact List.mem_cons_of_mem _ (ih h)

/-- The tables of R163 to R168 name no position of MSET and no position twice: a position's kind depends on one
field only (R171 (d)). -/
theorem greedy_positions (t : List (Nat × Nat)) (r : Nat) : (greedy r t).map Prod.fst = t.map Prod.fst := by
  induction t generalizing r with
  | nil => rfl
  | cons p t ih =>
    unfold greedy
    split <;> simp [ih]

/-- A position no table of a list names is not found in its greedy decomposition. -/
theorem greedy_lookup_none {t : List (Nat × Nat)} {i : Nat} (r : Nat) (h : i ∉ t.map Prod.fst) :
    (greedy r t).lookup i = none := by
  rw [List.lookup_eq_none_iff]
  intro p hp
  have : p.1 ∈ t.map Prod.fst := by
    rw [← greedy_positions t r]
    exact List.mem_map_of_mem hp
  simp only [ne_eq, bne_iff_ne]
  rintro rfl
  exact h this

/-- A position a table names has a kind in its greedy decomposition. -/
theorem greedy_lookup_some {t : List (Nat × Nat)} {i : Nat} (r : Nat) (h : i ∈ t.map Prod.fst) :
    ∃ k, (greedy r t).lookup i = some k := by
  rw [← Option.ne_none_iff_exists', Ne, List.lookup_eq_none_iff]
  intro hn
  rw [← greedy_positions t r] at h
  obtain ⟨p, hp, rfl⟩ := List.mem_map.1 h
  simpa using hn p hp

/-- Which field assigns a position its kind: the first that names it (R170). -/
theorem fieldBits_lookup (c : Calendar) (sign : Dut1Sign) (i : Nat) :
    (fieldBits c sign).lookup i =
      ((greedy c.min.toNat minuteTable).lookup i).or (((greedy c.hour.toNat hourTable).lookup i).or
        (((greedy c.doy.toNat doyTable).lookup i).or (((greedy c.year.toNat yearTable).lookup i).or
          (((dut1Bits sign).lookup i).or ((miscBits c).lookup i))))) := by
  simp only [fieldBits, List.lookup_append, Option.or_assoc]

end Sys2Proof.Machine
end

