-- ==== Sys2Proof/Laws/PerInstr.lean ====
section
/-! SUPPORT. Statements about every instruction as syntax, one lemma a constructor. -/

namespace Sys2Proof.Laws.OpField

/-- The operation field of an instruction's word (`30_encoding.md` R71); the events have no word (R79). -/
def expected : Instr → Option (BitVec 3)
  | .nop => some 0#3
  | .setTime _ _ _ _ _ _ => some 1#3
  | .advance _ _ => some 2#3
  | .start => some 3#3
  | .stop => some 4#3
  | .resume => some 5#3
  | .isActive => some 6#3
  | .getTime => some 6#3
  | .getDoy => some 6#3
  | .bitkindAt _ => some 6#3
  | .getTimer => some 6#3
  | .tick => none
  | .reset => none

/-- The word of an instruction carries its operation in bits 31..29, and an event has none. -/
def Statement (i : Instr) : Prop := (encode i).map (fun w => w.extractLsb' 29 3) = expected i

theorem nop : Statement .nop := by unfold Statement; decide
theorem setTime (mi : BitVec 6) (hr dy : BitVec 5) (mo : BitVec 4) (yr : BitVec 7) (ds : BitVec 2) :
    Statement (.setTime mi hr dy mo yr ds) := congrArg some (setTimeWord_op mi hr dy mo yr ds)
theorem advance (ah am : BitVec 8) : Statement (.advance ah am) := congrArg some (advanceWord_op ah am)
theorem start : Statement .start := by unfold Statement; decide
theorem stop : Statement .stop := by unfold Statement; decide
theorem resume : Statement .resume := by unfold Statement; decide
theorem isActive : Statement .isActive := by unfold Statement; decide
theorem getTime : Statement .getTime := by unfold Statement; decide
theorem getDoy : Statement .getDoy := by unfold Statement; decide
theorem bitkindAt (idx : BitVec 6) : Statement (.bitkindAt idx) := congrArg some (bitkindAtWord_op idx)
theorem getTimer : Statement .getTimer := by unfold Statement; decide
theorem tick : Statement .tick := by unfold Statement; decide
theorem reset : Statement .reset := by unfold Statement; decide

end Sys2Proof.Laws.OpField
end

