-- ==== Sys2Proof/Laws/Responses.lean ====
section
/-! SUPPORT. The fields of the response words (`30_encoding.md` R80), one lemma a field. -/

namespace Sys2Proof.Machine

section TimeWord

variable (mi : BitVec 6) (hr dy : BitVec 5) (mo : BitVec 4) (yr : BitVec 7) (ds : BitVec 2)

theorem timeWord_min : (timeWord mi hr dy mo yr ds).extractLsb' 23 6 = mi := by
  ext i hi
  interval_cases i <;> simp [timeWord]

theorem timeWord_hour : (timeWord mi hr dy mo yr ds).extractLsb' 18 5 = hr := by
  ext i hi
  interval_cases i <;> simp [timeWord]

theorem timeWord_day : (timeWord mi hr dy mo yr ds).extractLsb' 13 5 = dy := by
  ext i hi
  interval_cases i <;> simp [timeWord]

theorem timeWord_mon : (timeWord mi hr dy mo yr ds).extractLsb' 9 4 = mo := by
  ext i hi
  interval_cases i <;> simp [timeWord]

theorem timeWord_year : (timeWord mi hr dy mo yr ds).extractLsb' 2 7 = yr := by
  ext i hi
  interval_cases i <;> simp [timeWord]

theorem timeWord_dst : (timeWord mi hr dy mo yr ds).extractLsb' 0 2 = ds := by
  ext i hi
  interval_cases i <;> simp [timeWord]

theorem timeWord_high : (timeWord mi hr dy mo yr ds).extractLsb' 29 3 = 0#3 := by
  ext i hi
  interval_cases i <;> simp [timeWord]

end TimeWord

section DoyWord

variable (doy : BitVec 9) (leap lsw : Bool)

theorem doyWord_doy : (doyWord doy leap lsw).extractLsb' 0 9 = doy := by
  ext i hi
  interval_cases i <;> simp [doyWord]

theorem doyWord_leap : (doyWord doy leap lsw).extractLsb' 9 1 = BitVec.ofBool leap := by
  ext i hi
  interval_cases i
  simp [doyWord]

theorem doyWord_lsw : (doyWord doy leap lsw).extractLsb' 10 1 = BitVec.ofBool lsw := by
  ext i hi
  interval_cases i
  simp [doyWord]

theorem doyWord_high : (doyWord doy leap lsw).extractLsb' 11 21 = 0#21 := by
  ext i hi
  interval_cases i <;> simp [doyWord]

end DoyWord

section TimerWord

variable (curk : BitKind) (active : Bool) (phase : Phase) (pos : Fin 60) (tcnt : BitVec 16)

/-- A position fits 6 bits (R29). -/
theorem position_setWidth : BitVec.ofNat 32 pos.val = (BitVec.ofNat 6 pos.val).setWidth 32 := by
  apply BitVec.eq_of_toNat_eq
  simp only [BitVec.toNat_ofNat, BitVec.toNat_setWidth]
  omega

theorem timerWord_tcnt : (timerWord curk active phase pos tcnt).extractLsb' 0 16 = tcnt := by
  rw [timerWord, position_setWidth]
  ext i hi
  interval_cases i <;> simp

theorem timerWord_pos : (timerWord curk active phase pos tcnt).extractLsb' 16 6 = BitVec.ofNat 6 pos.val := by
  rw [timerWord, position_setWidth]
  ext i hi
  interval_cases i <;> simp

theorem timerWord_phase : (timerWord curk active phase pos tcnt).extractLsb' 22 1 = phase.code := by
  rw [timerWord, position_setWidth]
  ext i hi
  interval_cases i
  simp

theorem timerWord_active : (timerWord curk active phase pos tcnt).extractLsb' 23 1 = BitVec.ofBool active := by
  rw [timerWord, position_setWidth]
  ext i hi
  interval_cases i
  simp

theorem timerWord_curk : (timerWord curk active phase pos tcnt).extractLsb' 24 2 = curk.code := by
  rw [timerWord, position_setWidth]
  ext i hi
  interval_cases i <;> simp

theorem timerWord_high : (timerWord curk active phase pos tcnt).extractLsb' 26 6 = 0#6 := by
  rw [timerWord, position_setWidth]
  ext i hi
  interval_cases i <;> simp

end TimerWord

end Sys2Proof.Machine
end

