-- ==== Sys2Proof/Laws/Tick.lean ====
section
/-! SUPPORT. What a tick does, branch by branch (`41_bit_scheduler.md` R121), for proofs to cite instead of unfolding
`State.endBit`. -/

namespace Sys2Proof.Machine

/-- The count stored is the count plus one. -/
theorem tcnt_succ (b : BitVec 16) : BitVec.ofNat 16 (nextCount b) = b + 1#16 := by
  apply BitVec.eq_of_toNat_eq
  simp [nextCount]

theorem nextPosition_wrap {p : Fin 60} (h : p.val = 59) : nextPosition p = 0 := by
  apply Fin.ext
  simp [nextPosition, h]

theorem nextPosition_val_of_lt {p : Fin 60} (h : p.val < 59) : (nextPosition p).val = p.val + 1 := by
  simp only [nextPosition]
  omega

theorem nextPosition_ne_zero {p : Fin 60} (h : p.val < 59) : nextPosition p ≠ 0 := by
  intro e
  have hv := congrArg Fin.val e
  rw [nextPosition_val_of_lt h] at hv
  simp at hv

variable (s : State)

/-- A stopped block ignores a tick. -/
theorem execNext_tick_stopped (h : s.active = false) : execNext .tick s = s := by
  rw [execNext_tick]
  simp [tickEffect, h]

/-- The tick that brings the count to `E` ends the bit. -/
theorem execNext_tick_end (hw : s.cfg.wellFormed = true) (ha : s.active = true)
    (h : s.tcnt.toNat + 1 = s.cfg.e) : execNext .tick s = s.endBit := by
  have hk := (Config.wellFormed_bounds hw).2 s.curk
  rcases tickEffect_cases s.cfg s.active s.curk s.tcnt with k | k | k | k
  · rw [ha] at k
    simp at k
  · omega
  · rw [execNext_tick, k.1]
  · omega

/-- The end of a bit before position 59: the next position begins with the kind the frame gives it. -/
theorem State.endBit_of_lt (h : s.pos.val < 59) :
    s.endBit = { s with
      phase := .low, pos := nextPosition s.pos, curk := s.frame[nextPosition s.pos], tcnt := 0 } := by
  simp only [State.endBit, nextPosition_ne_zero h, if_false]
  rfl

/-- The end of position 59: the calendar advances by one minute and position 0 begins. -/
theorem State.endBit_of_wrap (h : s.pos.val = 59) :
    s.endBit = (s.setPos 0).advanceOneMinute.beginBit ((s.setPos 0).advanceOneMinute.kindAt 0) := by
  have hp : (s.setPos 0).advanceOneMinute.pos = 0 := by simp [State.advanceOneMinute]
  simp only [State.endBit, nextPosition_wrap h, if_true, hp]

/-- A bit that has just begun meets the timer clauses of R33. -/
theorem State.timerOk_of_begun (hw : s.cfg.wellFormed = true) (ht : s.tcnt = 0) (hp : s.phase = .low) :
    s.TimerOk := by
  have hk := (Config.wellFormed_bounds hw).2 s.curk
  refine ⟨?_, fun h => ?_, fun _ => ?_⟩
  · rw [ht]
    simp only [BitVec.ofNat_eq_ofNat, BitVec.toNat_ofNat, Nat.zero_mod]
    omega
  · rw [hp] at h
    cases h
  · rw [ht]
    simp only [BitVec.ofNat_eq_ofNat, BitVec.toNat_ofNat, Nat.zero_mod]
    omega

end Sys2Proof.Machine
end

