-- ==== Sys2Proof/Machine/Assembler.lean ====
section
/-! DEFINITION. The assembler of `30_encoding.md` R81 and R82: the reading of a line of text, the word it assembles
to, and what it presents on the input ports, or a refusal. What R81 leaves open of the text's form is in log 12. -/

namespace Sys2Proof.Machine

/-- The DST operand of SET_TIME: a number 0..3 or a code string (R81). -/
inductive DstOperand where
  | number (n : Nat)
  | code (c : String)
deriving DecidableEq, Repr

/-- One assembly line (R81), a pseudo-instruction (R82) or a directive that stands for input events. -/
inductive AsmLine where
  | nop
  /-- `SET_TIME mi, hr, dy, mo, yr` or `SET_TIME mi, hr, dy, mo, yr, ds`. -/
  | setTime (mi hr dy mo yr : Nat) (ds : Option DstOperand)
  /-- `ADVANCE am, ah`: minutes first. -/
  | advance (am ah : Nat)
  | advance1
  | advanceH (ah : Nat)
  | start
  | stop
  | resume
  | isActive
  | getTime
  | getDoy
  | bitkindAt (idx : Nat)
  | getTimer
  /-- `.word 0xHHHHHHHH`, illegal words included. -/
  | word (w : Nat)
  /-- `SET_TIME_STR "date", "time"`, refused. -/
  | setTimeStr (date time : String)
  /-- The directive `TICK n`. -/
  | tick (n : Nat)
  /-- The directive `RESET`. -/
  | reset
deriving DecidableEq, Repr

/-- An operand in its field, refused when it does not fit (R81). -/
def fit (width n : Nat) : Option (BitVec width) := if n < 2 ^ width then some (BitVec.ofNat width n) else none

/-- The DST operand in its 2-bit field; omitted it is 0 (R82). -/
def dstField : Option DstOperand → Option (BitVec 2)
  | none => some 0#2
  | some (.number n) => fit 2 n
  | some (.code c) =>
    if c = "00" then some 0#2
    else if c = "10" then some 2#2
    else if c = "11" then some 3#2
    else if c = "01" then some 1#2
    else none

/-- The command a line assembles to; directives, raw words and refused lines have none. -/
def AsmLine.command : AsmLine → Option Instr
  | .nop => some .nop
  | .setTime mi hr dy mo yr ds => do
    let mi ← fit 6 mi
    let hr ← fit 5 hr
    let dy ← fit 5 dy
    let mo ← fit 4 mo
    let yr ← fit 7 yr
    let ds ← dstField ds
    return .setTime mi hr dy mo yr ds
  | .advance am ah => do
    let am ← fit 8 am
    let ah ← fit 8 ah
    return .advance ah am
  | .advance1 => some (.advance 0#8 1#8)
  | .advanceH ah => do
    let ah ← fit 8 ah
    return .advance ah 0#8
  | .start => some .start
  | .stop => some .stop
  | .resume => some .resume
  | .isActive => some .isActive
  | .getTime => some .getTime
  | .getDoy => some .getDoy
  | .bitkindAt idx => do
    let idx ← fit 6 idx
    return .bitkindAt idx
  | .getTimer => some .getTimer
  | .word _ => none
  | .setTimeStr _ _ => none
  | .tick _ => none
  | .reset => none

/-- The command word a line assembles to (R83); a value that fits its field is assembled even when it is out
of its legal range (R81). -/
def AsmLine.word? : AsmLine → Option Word
  | .word w => fit 32 w
  | l => l.command.bind encode

/-- The port samples a line stands for, one `clk` cycle each; `none` when the assembler refuses it. -/
def AsmLine.samples : AsmLine → Option (List PortSample)
  | .tick n => if 1 ≤ n then some (List.replicate n { tick := true }) else none
  | .reset => some [{ rst := true }]
  | l => l.word?.map fun w => [commandSample w]

/-- A command line presented in the same `clk` cycle as one tick (`00_scope.md` R3). -/
def AsmLine.sameCycleAsTick (l : AsmLine) : Option (List PortSample) :=
  l.word?.map fun w => [{ cmd := some w, tick := true }]

/-- A program: its lines' samples one after another, refused when a line is. -/
def assemble : List AsmLine → Option (List PortSample)
  | [] => some []
  | l :: ls =>
    match l.samples, assemble ls with
    | some a, some b => some (a ++ b)
    | _, _ => none

/-! ## The text of a line -/

/-- White space between the words of a line. -/
def isBlank (c : Char) : Bool := c == ' ' || c == '\t'

/-- The text before the first `;`, which begins a comment. -/
def dropComment (cs : List Char) : List Char := cs.takeWhile (· != ';')

/-- Text without the blanks around it. -/
def trimBlanks (cs : List Char) : List Char :=
  ((cs.dropWhile isBlank).reverse.dropWhile isBlank).reverse

/-- The operands of a line: its text cut at each comma. -/
def splitCommas : List Char → List (List Char)
  | [] => [[]]
  | c :: cs =>
    match splitCommas cs with
    | [] => [[]]
    | w :: ws => if c == ',' then [] :: w :: ws else (c :: w) :: ws

/-- The value of a digit below `radix`. -/
def digitValue (radix : Nat) (c : Char) : Option Nat :=
  let v :=
    if '0'.toNat ≤ c.toNat ∧ c.toNat ≤ '9'.toNat then c.toNat - '0'.toNat
    else if 'A'.toNat ≤ c.toNat ∧ c.toNat ≤ 'F'.toNat then c.toNat - 'A'.toNat + 10
    else if 'a'.toNat ≤ c.toNat ∧ c.toNat ≤ 'f'.toNat then c.toNat - 'a'.toNat + 10
    else radix
  if v < radix then some v else none

/-- The value of a string of digits, the most significant first, on top of `acc`. -/
def digitsValue (radix : Nat) : Nat → List Char → Option Nat
  | acc, [] => some acc
  | acc, c :: cs =>
    match digitValue radix c with
    | some v => digitsValue radix (acc * radix + v) cs
    | none => none

/-- A number: decimal unless it is written `0x...` (R81). -/
def readNumber (cs : List Char) : Option Nat :=
  match cs with
  | [] => none
  | ['0', 'x'] => none
  | '0' :: 'x' :: hex => digitsValue 16 0 hex
  | dec => digitsValue 10 0 dec

/-- A DST operand: a number or a code in quotation marks (R81). -/
def readDst (cs : List Char) : Option DstOperand :=
  match cs with
  | ['"', '0', '0', '"'] => some (.code "00")
  | ['"', '0', '1', '"'] => some (.code "01")
  | ['"', '1', '0', '"'] => some (.code "10")
  | ['"', '1', '1', '"'] => some (.code "11")
  | _ => (readNumber cs).map .number

/-- The line a mnemonic without operands stands for. -/
def bareLine (mnemonic : List Char) : Option AsmLine :=
  if mnemonic = "NOP".toList then some .nop
  else if mnemonic = "ADVANCE1".toList then some .advance1
  else if mnemonic = "START".toList then some .start
  else if mnemonic = "STOP".toList then some .stop
  else if mnemonic = "RESUME".toList then some .resume
  else if mnemonic = "IS_ACTIVE".toList then some .isActive
  else if mnemonic = "GET_TIME".toList then some .getTime
  else if mnemonic = "GET_DOY".toList then some .getDoy
  else if mnemonic = "GET_TIMER".toList then some .getTimer
  else if mnemonic = "RESET".toList then some .reset
  else none

/-- The line a mnemonic with operands stands for. `SET_TIME_STR` is refused (R82), and so is a mnemonic or a number of
operands that R81 and R82 do not list. -/
def operandLine (mnemonic : List Char) (ops : List (List Char)) : Option AsmLine :=
  if mnemonic = "SET_TIME".toList then
    match ops with
    | [mi, hr, dy, mo, yr] => do
      return .setTime (← readNumber mi) (← readNumber hr) (← readNumber dy) (← readNumber mo) (← readNumber yr) none
    | [mi, hr, dy, mo, yr, ds] => do
      return .setTime (← readNumber mi) (← readNumber hr) (← readNumber dy) (← readNumber mo) (← readNumber yr)
        (some (← readDst ds))
    | _ => none
  else
    match ops with
    | [x, y] =>
      if mnemonic = "ADVANCE".toList then do return .advance (← readNumber x) (← readNumber y) else none
    | [x] =>
      if mnemonic = "ADVANCE_H".toList then (readNumber x).map .advanceH
      else if mnemonic = "BITKIND_AT".toList then (readNumber x).map .bitkindAt
      else if mnemonic = ".word".toList then (readNumber x).map .word
      else if mnemonic = "TICK".toList then (readNumber x).map .tick
      else none
    | _ => none

/-- A line of text, or a refusal. -/
def AsmLine.parse (text : String) : Option AsmLine :=
  let line := trimBlanks (dropComment text.toList)
  let mnemonic := line.takeWhile (fun c => !isBlank c)
  let rest := trimBlanks (line.dropWhile (fun c => !isBlank c))
  if rest.isEmpty then bareLine mnemonic else operandLine mnemonic ((splitCommas rest).map trimBlanks)

/-- A program as lines of text. -/
def assembleText (lines : List String) : Option (List PortSample) := (lines.mapM AsmLine.parse).bind assemble

end Sys2Proof.Machine
end

