-- ==== Sys2Proof/Tests/Slice0.lean ====
section
/-! SUPPORT. Tests. The expected values are those of the spec: the vectors and programs of
`95_test_vectors.md` (named V-.., P..) and the words of `30_encoding.md` R83, not the model's own answers. -/

namespace Sys2Proof.Tests

open Sys2Proof.Machine

/-- The next state of an outcome. -/
def nextOf : Host.Outcome State Fault Refusal → Option State
  | .next s => some s
  | .fault _ => none
  | .refused _ => none

/-- The reset state in configuration TC. -/
def tc : State := State.resetFor Config.test

/-- A defined calendar with its derived registers, in configuration TC, frame re-derived. -/
def at_ (mi : BitVec 6) (hr dy : BitVec 5) (mo : BitVec 4) (yr : BitVec 7) (ds : BitVec 2) : State :=
  (tc.setCalendar ((tc.cal.store mi hr dy mo yr ds).deriveLeapDoy false) false).rederive

/-- A timer state `POS / TCNT / PHASE / CURK / ACTIVE`. -/
def timer (pos : Fin 60) (tcnt : BitVec 16) (phase : Phase) (curk : BitKind) (active : Bool) (s : State) :
    State :=
  { s with pos := pos, tcnt := tcnt, phase := phase, curk := curk, active := active }

/-- A timer state read back. -/
structure TimerState where
  pos : Fin 60
  tcnt : BitVec 16
  phase : Phase
  curk : BitKind
  active : Bool
deriving DecidableEq, Repr

/-- The timer state read back. -/
def timerOf (s : State) : TimerState := ⟨s.pos, s.tcnt, s.phase, s.curk, s.active⟩

/-- The state `s` with inputs waiting. -/
def waiting (l : List PortSample) (s : State) : State := { s with inputs := l }

/-- `hh:mm dd/mm/yy doy leap dst` as numbers. -/
def dateOf (s : State) : List Nat :=
  [s.cal.hour.toNat, s.cal.min.toNat, s.cal.day.toNat, s.cal.mon.toNat, s.cal.year.toNat, s.cal.doy.toNat,
    s.cal.leap.toNat, s.cal.dst.toNat]

/-- The frame written as in `95_test_vectors.md`: M is 2, 1 and 0 are themselves. -/
def frameOf (s : State) : List Nat := s.frame.toList.map fun k => k.code.toNat

/-- The error cause a word decodes to. -/
def causeOf (w : Word) : Option Cause :=
  match decode w with
  | .command _ => none
  | .illegal c => some c

/-! ## Well-formedness: each check with a term it refuses -/

theorem test_wellFormed_index_59 : (Instr.bitkindAt 59).wellFormed = true := by decide
theorem test_wellFormed_index_60_refused : (Instr.bitkindAt 60).wellFormed = false := by decide
theorem test_wellFormed_index_63_refused : (Instr.bitkindAt 63).wellFormed = false := by decide

/-! ## Configurations: section 2.7 -/

theorem test_config_nominal : Config.nominal.wellFormed = true := by decide
theorem test_config_test : Config.test.wellFormed = true := by decide
theorem test_config_one_tick_off :
    ({ e := 10, lZero := 2, lOne := 4, lMarker := 8 } : Config).wellFormed = true := by decide
theorem test_config_cw3_refused :
    ({ e := 10, lZero := 2, lOne := 3, lMarker := 8 } : Config).wellFormed = false := by decide
theorem test_config_cw1_marker_refused :
    ({ e := 10, lZero := 2, lOne := 5, lMarker := 10 } : Config).wellFormed = false := by decide
theorem test_config_cw2_refused :
    ({ e := 70000, lZero := 14000, lOne := 35000, lMarker := 56000 } : Config).wellFormed = false := by
  decide
theorem test_config_cw1_zero_refused :
    ({ e := 10, lZero := 0, lOne := 5, lMarker := 8 } : Config).wellFormed = false := by decide
/-- CW1 alone: a one-tick bit meets CW2 and CW3 but has no LOW length of 1 inside it. -/
theorem test_config_cw1_alone_refused :
    ({ e := 1, lZero := 1, lOne := 1, lMarker := 1 } : Config).wellFormed = false := by decide

/-! ## Decoding: words written out bit by bit from R72 to R75, then R83 and section 2.1 -/

theorem test_decode_nop : decode 0b000_00000000000000000000000000000#32 = .command .nop := by decide
/-- V-E7: OP 001, MI 29, HR 13, DY 15, MO 6, YR 26, DS 2. -/
theorem test_decode_setTime : decode 0b001_011101_01101_01111_0110_0011010_10#32 =
    .command (.setTime 29 13 15 6 26 2) := by decide
/-- OP 010, thirteen zeros, AH 1, AM 2. -/
theorem test_decode_advance : decode 0b010_0000000000000_00000001_00000010#32 =
    .command (.advance 1 2) := by decide
theorem test_decode_start : decode 0b011_00000000000000000000000000000#32 = .command .start := by decide
theorem test_decode_stop : decode 0b100_00000000000000000000000000000#32 = .command .stop := by decide
theorem test_decode_resume : decode 0b101_00000000000000000000000000000#32 = .command .resume := by decide
theorem test_decode_isActive :
    decode 0b110_000_00000000000000000000_000000#32 = .command .isActive := by decide
theorem test_decode_getTime :
    decode 0b110_001_00000000000000000000_000000#32 = .command .getTime := by decide
theorem test_decode_getDoy :
    decode 0b110_010_00000000000000000000_000000#32 = .command .getDoy := by decide
theorem test_decode_bitkindAt :
    decode 0b110_011_00000000000000000000_100001#32 = .command (.bitkindAt 33) := by decide
theorem test_decode_getTimer :
    decode 0b110_100_00000000000000000000_000000#32 = .command .getTimer := by decide
/-- V-D2 to V-D10. -/
theorem test_decode_reserved_bits :
    [0x00000001#32, 0x1FFFFFFF#32, 0x60000001#32, 0x80000010#32, 0xB0000000#32, 0x40010000#32,
      0x5FFF0000#32].map causeOf = List.replicate 7 (some .reservedBits) := by decide
theorem test_decode_reserved_opcode :
    [0xE0000000#32, 0xFFFFFFFF#32].map causeOf = List.replicate 2 (some .reservedOpcode) := by decide
/-- V-D12 to V-D15, V-D25, V-D26. -/
theorem test_decode_read_reserved_bits :
    [0xC0000001#32, 0xC4000001#32, 0xC8000040#32, 0xCC000040#32, 0xD0000001#32, 0xD0000040#32].map causeOf
      = List.replicate 6 (some .reservedBits) := by decide
/-- V-D20 to V-D24: the selector check comes first. -/
theorem test_decode_reserved_selector :
    [0xD4000000#32, 0xD8000000#32, 0xDC000000#32, 0xD4000001#32, 0xDFFFFFFF#32].map causeOf
      = List.replicate 5 (some .reservedSelector) := by decide
/-- V-D17 to V-D19. -/
theorem test_decode_index_range :
    [0xCC00003B#32, 0xCC00003C#32, 0xCC00003F#32].map causeOf =
      [none, some .indexRange, some .indexRange] := by decide
/-- V-E2 and R83. -/
theorem test_encode_setTime : encode (.setTime 58 23 31 12 99 0) = some 0x3D5FF98C#32 := by decide
theorem test_encode_advance : encode (.advance 24 0) = some 0x40001800#32 := by decide
theorem test_encode_bitkindAt : encode (.bitkindAt 33) = some 0xCC000021#32 := by decide
theorem test_decodeTableWord : decodeTableWord 32 0x20002200 = some (.setTime 0 0 1 1 0 0) := by decide
theorem test_withFetchWord_runs :
    (nextOf (step (State.reset.withFetchWord 32 0x60000000))).map timerOf =
      some ⟨0, 0, .low, .marker, true⟩ := by decide

/-! ## Calendar: section 2.6 -/

/-- V-K1: 24 leap years of 100. -/
theorem test_leap_years : ((List.range 100).filter (isLeap false)).length = 24 := by decide
theorem test_leap_year_00 : (isLeap false 0, isLeap true 0) = (false, true) := by decide
/-- V-K2. -/
theorem test_day_of_year :
    [dayOfYear 1 1 false, dayOfYear 31 1 false, dayOfYear 1 2 false, dayOfYear 28 2 false, dayOfYear 1 3 false,
      dayOfYear 31 12 false, dayOfYear 29 2 true, dayOfYear 1 3 true, dayOfYear 31 12 true,
      dayOfYear 15 6 false, dayOfYear 30 4 false] = [1, 31, 32, 59, 60, 365, 60, 61, 366, 166, 120] := by
  decide

/-! ## SET_TIME: section 2.5 -/

/-- V-E1, and the timer of R140's example. -/
theorem test_setTime_example :
    (nextOf (exec (.setTime 0 0 1 1 0 0) (timer 7 5 .high .one true tc))).map
      (fun s => (dateOf s, timerOf s)) =
      some ([0, 1, 1, 1, 0, 1, 0, 0], ⟨0, 0, .low, .marker, true⟩) := by decide
/-- V-E6: year, month, day, hour and minute roll over together. -/
theorem test_setTime_rolls_over :
    (nextOf (exec (.setTime 59 23 31 12 24 3) tc)).map dateOf = some [0, 0, 1, 1, 25, 1, 0, 3] := by decide
/-- V-E12 to V-E18. -/
theorem test_setTime_illegal_operands :
    [(60, 0, 1, 1, 0), (0, 24, 1, 1, 0), (0, 0, 0, 1, 0), (0, 0, 1, 13, 0), (0, 0, 29, 2, 23), (0, 0, 1, 1, 100),
      (0, 0, 31, 4, 0)].map
      (fun x : BitVec 6 × BitVec 5 × BitVec 5 × BitVec 4 × BitVec 7 =>
        (nextOf (exec (.setTime x.1 x.2.1 x.2.2.1 x.2.2.2.1 x.2.2.2.2 3) tc)).map
          (fun s => (s.undef, s.cal.dst, s.rspErr))) =
      List.replicate 7 (some (true, 3, false)) := by decide
/-- P6 step 4: a marker is defined while `UNDEF = 1`. -/
theorem test_setTime_illegal_markers :
    (nextOf (exec (.setTime 0 0 31 2 0 0) tc)).map (fun s => (s.kindAt 9, s.kindAt 59, s.curk)) =
      some (.marker, .marker, .marker) := by decide

/-! ## ADVANCE: section 2.5 -/

/-- V-E26. -/
theorem test_advance_year_99 :
    (nextOf (exec (.advance 0 1) (at_ 59 23 31 12 99 0))).map dateOf = some [0, 0, 1, 1, 0, 1, 0, 0] := by
  decide
/-- V-T9: the timer and the resident kind stay. -/
theorem test_advance_keeps_timer :
    (nextOf (exec (.advance 0 1) (timer 1 3 .high .zero true (at_ 1 0 1 1 0 0)))).map
      (fun s => (dateOf s, timerOf s)) = some ([0, 2, 1, 1, 0, 1, 0, 0], ⟨1, 3, .high, .zero, true⟩) := by
  decide

/-! ## Frames: section 2.4 -/

/-- V-F3a, the reset frame. -/
theorem test_frame_reset : frameOf tc =
    [2,0,0,0,0,0,0,0,0,2, 0,0,0,0,0,0,0,0,0,2, 0,0,0,0,0,0,0,0,0,2] ++
    [0,0,0,1,0,0,0,1,0,2, 0,0,0,0,0,0,0,0,0,2, 0,0,0,0,0,0,0,0,0,2] := by decide
/-- V-F3j: 23:59 31/12/24 doy 366 leap 1 dst 01. -/
theorem test_frame_leap_year_end : frameOf (at_ 59 23 31 12 24 1) =
    [2,1,0,1,0,1,0,0,1,2, 0,0,1,0,0,0,0,1,1,2, 0,0,1,1,0,0,1,1,0,2] ++
    [0,1,1,0,0,0,0,1,0,2, 0,0,0,0,0,0,0,1,0,2, 0,1,0,0,0,1,0,0,1,2] := by decide
/-- V-F3h: 13:30 15/06/26 doy 166 dst 10. -/
theorem test_frame_dst_starts : frameOf (at_ 30 13 15 6 26 2) =
    [2,0,1,1,0,0,0,0,0,2, 0,0,0,1,0,0,0,1,1,2, 0,0,0,1,0,0,1,1,0,2] ++
    [0,1,1,0,0,0,0,1,0,2, 0,0,0,0,0,0,0,1,0,2, 0,1,1,0,0,0,0,1,0,2] := by decide
/-- V-F4: `DUT1_SIGN = POS`. -/
theorem test_frame_dut1_pos :
    [36, 37, 38].map (encodeAt (Calendar.atReset false) .pos) = [.one, .zero, .one] := by decide

/-! ## Carrier control: section 2.2 -/

theorem test_nop_clears_error :
    (nextOf (exec .nop (tc.commandError .indexRange))).map (fun s => (s.rspData, s.rspErr)) =
      some (0, false) := by decide
/-- V-C12. -/
theorem test_start_restarts_bit :
    (nextOf (exec .start (timer 2 5 .high .zero true (at_ 1 0 1 1 0 0)))).map timerOf =
      some ⟨2, 0, .low, .zero, true⟩ := by decide
/-- V-C13. -/
theorem test_stop_keeps_timer :
    (nextOf (exec .stop (timer 0 3 .low .marker true tc))).map timerOf =
      some ⟨0, 3, .low, .marker, false⟩ := by decide
theorem test_resume_keeps_timer :
    (nextOf (exec .resume (timer 2 4 .high .one false tc))).map timerOf =
      some ⟨2, 4, .high, .one, true⟩ := by decide
/-- V-C4, V-C6. -/
theorem test_isActive :
    ((nextOf (exec .isActive (tc.setActive true))).map (·.rspData),
      (nextOf (exec .isActive tc)).map (·.rspData)) = (some 1, some 0) := by decide

/-! ## Reads: section 2.5 and V-T8 -/

/-- V-E29. -/
theorem test_getTime : (nextOf (exec .getTime (at_ 0 0 1 3 24 0))).map (·.rspData) =
    some 0x00002660 := by decide
/-- V-E28 with DST read back. -/
theorem test_getTime_dst : (nextOf (exec .getTime (at_ 1 0 1 1 0 3))).map (·.rspData) =
    some 0x00802203 := by decide
/-- V-E31. -/
theorem test_getDoy : (nextOf (exec .getDoy (at_ 0 0 1 3 24 0))).map (·.rspData) = some 0x0000023D := by
  decide
/-- V-E33 to V-E38. -/
theorem test_bitkindAt :
    ([8, 9].map fun i => (nextOf (exec (.bitkindAt i) (at_ 1 0 1 1 0 0))).map (·.rspData)) ++
      ([33, 55, 22].map fun i => (nextOf (exec (.bitkindAt i) (at_ 0 0 1 1 0 0))).map (·.rspData)) ++
      [(nextOf (exec (.bitkindAt 55) (at_ 0 0 29 2 24 0))).map (·.rspData)] =
      [some 1, some 2, some 1, some 0, some 0, some 1] := by decide
theorem test_bitkindAt_out_of_range :
    (nextOf (exec (.bitkindAt 60) tc)).map (fun s => (s.rspData, s.rspErr)) = some (4, true) := by decide
/-- V-T8. -/
theorem test_getTimer :
    [(nextOf (exec .getTimer (timer 1 2 .high .zero true tc))).map (·.rspData),
      (nextOf (exec .getTimer (timer 0 0 .low .marker true tc))).map (·.rspData),
      (nextOf (exec .getTimer (timer 2 5 .high .one true tc))).map (·.rspData)] =
      [some 0x00C10002, some 0x02800000, some 0x01C20005] := by decide

/-! ## TICK: section 2.3 -/

/-- R121's example, and the last row of V-T3. -/
theorem test_tick_low_to_high_and_end :
    [(nextOf (exec .tick (timer 0 7 .low .marker true tc))).map timerOf,
      (nextOf (exec .tick (timer 0 9 .high .marker true (at_ 1 0 1 1 0 0)))).map timerOf] =
      [some ⟨0, 8, .high, .marker, true⟩, some ⟨1, 0, .low, .zero, true⟩] := by decide
/-- V-T7: the roll-over at the end of position 59. -/
theorem test_tick_roll_over :
    (nextOf (exec .tick (timer 59 9 .high .marker true (at_ 59 23 31 12 99 0)))).map
      (fun s => (dateOf s, timerOf s)) =
      some ([0, 0, 1, 1, 0, 1, 0, 0], ⟨0, 0, .low, .marker, true⟩) := by decide
/-- V-T6. -/
theorem test_tick_ignored : nextOf (exec .tick tc) = some tc := by decide

/-! ## RESET and the step -/

theorem test_reset_event :
    nextOf (exec .reset (timer 7 5 .high .one true (at_ 1 2 3 4 5 1))) = some tc := by decide
/-- P5 step 5: the response is the state before the tick of the same cycle, which stays to come. -/
theorem test_same_cycle_command_first :
    (nextOf (step { timer 1 0 .low .zero true (at_ 30 13 15 6 26 2) with
      inputs := [{ tick := true, cmd := some 0xD0000000 }] })).map
      (fun s => (s.rspData, s.tcnt, s.inputs)) =
      some (0x00810000, 0, [{ tick := true }]) := by decide
theorem test_reset_dominates :
    (nextOf (step { tc with active := true, inputs := [{ rst := true, tick := true, cmd := some 0 }] })).map
      (fun s => (s.active, s.inputs)) = some (false, []) := by decide
/-- P4 step 4. -/
theorem test_illegal_word_not_performed :
    (nextOf (step (tc.present 0x60000001))).map (fun s => (s.active, s.rspData, s.rspErr)) =
      some (false, 2, true) := by decide

/-! ## The observation: R10, one entry an event -/

/-- RESET and START give an entry each, a cycle without event none. -/
theorem test_trace_skips_idle_cycles :
    trace 3 (waiting [{ rst := true }, {}, { cmd := some 0x60000000 }] tc) =
      [⟨.low, false, 0, false⟩, ⟨.low, true, 0, false⟩] := by decide
theorem test_trace_of_reset_state : trace 5 State.reset = [] := by decide
/-- P4 step 4 after RESET: the illegal word answers cause 2. -/
theorem test_observation :
    observation [.cmd 0x60000001] tc = [⟨.low, false, 0, false⟩, ⟨.low, false, 2, true⟩] := by decide

/-! ## The assembler: R81, R82, S13 -/

theorem test_assemble_operand_too_wide :
    (AsmLine.setTime 0 0 40 1 0 none).word? = none ∧ (AsmLine.advance 256 0).word? = none := by decide
theorem test_assemble_out_of_range_kept :
    (AsmLine.setTime 60 0 1 1 0 none).word? = some 0x3E002200 ∧
      (AsmLine.bitkindAt 60).word? = some 0xCC00003C := by decide
theorem test_assemble_pseudo :
    AsmLine.advance1.word? = some 0x40000001 ∧ (AsmLine.advanceH 24).word? = some 0x40001800 ∧
      (AsmLine.setTimeStr "Jan 1 2026" "00:00:00").word? = none := by decide
theorem test_assemble_dst_code :
    (AsmLine.setTime 29 13 15 6 26 (some (.code "10"))).word? = some 0x2EB5EC6A := by decide
theorem test_assemble_program :
    assemble [.reset, .start, .tick 2] =
      some [{ rst := true }, { cmd := some 0x60000000 }, { tick := true }, { tick := true }] := by decide

/-! ## The text of a line: R81, R82, and the programs' lines of `95_test_vectors.md` -/

theorem test_parse_setTime :
    (AsmLine.parse "SET_TIME 29, 13, 15, 6, 26, \"10\"   ; P1").bind AsmLine.word? = some 0x2EB5EC6A ∧
      (AsmLine.parse "SET_TIME 0,0,1,1,0").bind AsmLine.word? = some 0x20002200 ∧
      (AsmLine.parse "SET_TIME 0,0,40,1,0").bind AsmLine.word? = none := by decide
theorem test_parse_advance :
    (AsmLine.parse "ADVANCE 0, 24").bind AsmLine.word? = some 0x40001800 ∧
      (AsmLine.parse "ADVANCE 256, 0").bind AsmLine.word? = none ∧
      (AsmLine.parse "ADVANCE1").bind AsmLine.word? = some 0x40000001 := by decide
theorem test_parse_word :
    (AsmLine.parse ".word     0xD4000001").bind AsmLine.word? = some 0xD4000001 ∧
      (AsmLine.parse "BITKIND_AT 0x21").bind AsmLine.word? = some 0xCC000021 ∧
      AsmLine.parse "SET_TIME_STR \"Jan 1 2026\", \"00:00:00\"" = none := by decide
theorem test_assembleText :
    assembleText ["RESET", "START", "TICK 2"] =
      some [{ rst := true }, { cmd := some 0x60000000 }, { tick := true }, { tick := true }] := by decide

/-! ## Witnesses: for each statement with hypotheses, states and operands that meet them together -/

/-- A running block at the first tick of position 0 (kind MARKER). -/
def begun : State := timer 0 0 .low .marker true tc

/-- A running block one tick before the end of position 58 (kind ZERO) and of position 59 (kind MARKER). -/
def last58 : State := timer 58 9 .high .zero true tc
def last59 : State := timer 59 9 .high .marker true tc

/-- A running block whose calendar is undefined, one tick before the end of position 59. -/
def last59Undef : State := { last59 with undef := true }

/-- A configuration whose counter would overflow: every low-duration is right for its `E`. -/
def tooLong : Config := { e := 65536, lZero := 13107, lOne := 32768, lMarker := 52429 }

theorem witness_inv_begun : begun.Inv :=
  ⟨by decide, by decide, fun _ => by constructor <;> decide, fun _ => by decide, by unfold Frame.MarkersExact; decide,
    by decide, by constructor <;> decide⟩
theorem witness_inv_last58 : last58.Inv :=
  ⟨by decide, by decide, fun _ => by constructor <;> decide, fun _ => by decide, by unfold Frame.MarkersExact; decide,
    by decide, by constructor <;> decide⟩
theorem witness_inv_last59 : last59.Inv :=
  ⟨by decide, by decide, fun _ => by constructor <;> decide, fun _ => by decide, by unfold Frame.MarkersExact; decide,
    by decide, by constructor <;> decide⟩
theorem witness_inv_last59Undef : last59Undef.Inv :=
  ⟨by decide, by decide, fun h => absurd h (by decide), fun h => absurd h (by decide),
    by unfold Frame.MarkersExact; decide, by decide, by constructor <;> decide⟩
/-- A state with an illegal word and a tick waiting, for the invariant's step. -/
theorem witness_EveryStepKeepsTheInvariant : (waiting [{ tick := true, cmd := some 0xFFFFFFFF }] last59).Inv :=
  ⟨by decide, by decide, fun _ => by constructor <;> decide, fun _ => by decide, by unfold Frame.MarkersExact; decide,
    by decide, by constructor <;> decide⟩
theorem witness_ResetMeetsTheInvariant : Config.nominal.wellFormed = true ∧ Config.test.wellFormed = true := by decide

theorem witness_DecodeOfEncodeIsTheCommand :
    (Instr.bitkindAt 59).wellFormed = true ∧ encode (.bitkindAt 59) = some 0xCC00003B#32 := by decide
theorem witness_LegalWordIsTheCommandsOwnWord : decode 0x3E002200#32 = .command (.setTime 60 0 1 1 0 0) := by decide
theorem witness_EverySetTimeWordIsLegal : (0x3FFFFFFF#32).extractLsb' 29 3 = 1#3 := by decide
/-- One tick too long a bit, and low-durations one tick outside and just inside the bounds of CW3. -/
theorem witness_ConfigurationChecks :
    tooLong.wellFormed = false ∧ { tooLong with e := 65535, lOne := 32767 }.wellFormed = true ∧
      { Config.test with lZero := 3 }.wellFormed = true ∧ { Config.test with lZero := 4 }.wellFormed = false ∧
      { Config.test with lZero := 0 }.wellFormed = false ∧ { Config.test with lMarker := 10 }.wellFormed = false := by
  decide
theorem witness_EveryStepHasASuccessor :
    tc.cfg.wellFormed = true ∧ (State.resetFor tooLong).cfg.wellFormed = false := by decide
theorem witness_TickCounterNeverOverflows : 65535 < (State.resetFor tooLong).cfg.e := by decide
theorem witness_StepExecutesThePresentedCommand :
    tc.cfg.wellFormed = true ∧ decode 0x60000000#32 = .command .start ∧
      (waiting [{ cmd := some 0x60000000#32 }] tc).inputs = { cmd := some 0x60000000#32 } :: [] ∧
      (waiting [{ tick := true, cmd := some 0x60000000#32 }] tc).inputs =
        { tick := true, cmd := some 0x60000000#32 } :: [] := by decide
theorem witness_StepTakesTheEventsOfTheCycle :
    (waiting [{ tick := true }] tc).inputs = { tick := true } :: [] ∧
      (waiting [{ rst := true, tick := true, cmd := some 0#32 }] tc).inputs =
        { rst := true, tick := true, cmd := some 0#32 } :: [] ∧
      (waiting [{}] tc).inputs = {} :: [] ∧ (waiting [] tc).inputs = [] := by decide
theorem witness_IllegalWordOnlyAnswersItsCause :
    [0xE0000000#32, 0x00000001#32, 0xD4000000#32, 0xCC00003C#32].map causeOf =
      [some .reservedOpcode, some .reservedBits, some .reservedSelector, some .indexRange] ∧
      (waiting [{ tick := true, cmd := some 0xCC00003C#32 }] tc).inputs =
        { tick := true, cmd := some 0xCC00003C#32 } :: [] := by decide
theorem witness_SameCycleInputsAreSerialised :
    (waiting [{ tick := true, cmd := some 0xFFFFFFFF#32 }] begun).cfg.wellFormed = true ∧
      (waiting [{ tick := true, cmd := some 0xFFFFFFFF#32 }] begun).inputs =
        { tick := true, cmd := some 0xFFFFFFFF#32 } :: [] ∧
      (waiting [{ rst := true, tick := true, cmd := some 0#32 }] begun).inputs =
        { rst := true, tick := true, cmd := some 0#32 } :: [] := by decide
/-- For every clause: its word waiting with a tick, in a running block at the end of a bit. -/
theorem witness_SameCycleConsequences :
    last59.cfg.wellFormed = true ∧ last59.active = true ∧ (0x3FFFFFFF#32).extractLsb' 29 3 = 1#3 ∧
      [0xD0000000#32, 0x80000000#32, 0xA0000000#32, 0x60000000#32, 0x3FFFFFFF#32].map
        (fun w => (waiting [{ tick := true, cmd := some w }] last59).inputs) =
      [[{ tick := true, cmd := some 0xD0000000#32 }], [{ tick := true, cmd := some 0x80000000#32 }],
        [{ tick := true, cmd := some 0xA0000000#32 }], [{ tick := true, cmd := some 0x60000000#32 }],
        [{ tick := true, cmd := some 0x3FFFFFFF#32 }]] := by decide
theorem witness_StopKeepsAllState :
    nextOf (exec .stop last59) = some { last59 with active := false } ∧ last59.cfg.wellFormed = true ∧
      (waiting [{ tick := true, cmd := some 0x80000000#32 }] last59).inputs =
        { tick := true, cmd := some 0x80000000#32 } :: [] := by decide
theorem witness_NopWritesOnlyTheResponse :
    last59.cfg.wellFormed = true ∧ (waiting [{ tick := true, cmd := some 0#32 }] last59).inputs =
      { tick := true, cmd := some 0x00000000#32 } :: [] := by decide
theorem witness_StopTicksResumeLosesNothing :
    begun.cfg.wellFormed = true ∧ begun.active = true ∧
      (waiting ({ cmd := some 0x80000000#32 } :: (tickSamples 2 ++ { cmd := some 0xA0000000#32 } :: [])) begun).inputs =
        { cmd := some 0x80000000#32 } :: (tickSamples 2 ++ { cmd := some 0xA0000000#32 } :: []) := by decide
/-- One state for each branch of TICK: stopped, LOW to HIGH, end of the bit at 58 and at 59 (calendar defined and
undefined), counting on; and a command that comes with a tick. -/
theorem witness_TickBranches :
    tc.active = false ∧
      (let s := timer 0 7 .low .marker true tc
       s.active = true ∧ s.tcnt.toNat + 1 = s.cfg.lowDur s.curk) ∧
      (last58.cfg.e ≤ last58.tcnt.toNat + 1 ∧ last58.active = true ∧ last58.pos.val < 59 ∧
        last58.tcnt.toNat + 1 ≠ last58.cfg.lowDur last58.curk) ∧
      (last59.cfg.e ≤ last59.tcnt.toNat + 1 ∧ last59.active = true ∧ last59.pos.val = 59 ∧ last59.undef = false ∧
        last59.tcnt.toNat + 1 ≠ last59.cfg.lowDur last59.curk) ∧
      (last59Undef.cfg.e ≤ last59Undef.tcnt.toNat + 1 ∧ last59Undef.active = true ∧ last59Undef.pos.val = 59 ∧
        last59Undef.undef = true ∧ last59Undef.tcnt.toNat + 1 ≠ last59Undef.cfg.lowDur last59Undef.curk) ∧
      (begun.active = true ∧ begun.tcnt.toNat + 1 ≠ begun.cfg.lowDur begun.curk ∧
        begun.tcnt.toNat + 1 < begun.cfg.e) ∧
      Config.test.wellFormed = true ∧ last59.cfg.wellFormed = true ∧
      (waiting [{ tick := true, cmd := some 0xFFFFFFFF#32 }] last59).inputs =
        { tick := true, cmd := some 0xFFFFFFFF#32 } :: [] := by decide
theorem witness_TickCountsOrEndsTheBit :
    last58.Inv ∧ last58.active = true ∧ (nextOf (exec .tick last58)).isSome = true :=
  ⟨witness_inv_last58, by decide, by decide⟩
theorem witness_TickComparesWithTheResidentKind :
    (timer 0 8 .high .marker true tc).tcnt.toNat + 1 < tc.cfg.e ∧
      nextOf (exec .tick (timer 0 8 .high .marker true tc)) = some (timer 0 9 .high .marker true tc) := by decide
/-- The bounds of the three ranges of the waveform are met by the shortest and the longest low-duration of `TC`. -/
theorem witness_BitWaveform :
    (waiting (tickSamples 10 ++ []) begun).cfg.wellFormed = true ∧ begun.active = true ∧ begun.tcnt = 0 ∧
      begun.phase = .low ∧ (waiting (tickSamples 10 ++ []) begun).inputs = tickSamples begun.cfg.e ++ [] ∧
      (1 ≤ 7 ∧ 7 ≤ begun.cfg.lowDur begun.curk - 1) ∧
      (begun.cfg.lowDur begun.curk + 1 ≤ 9 ∧ 9 ≤ begun.cfg.e - 1) := by decide
theorem witness_FramesFollowTheMinutes_inv : (waiting (tickSamples (1 * (60 * 10) + 59 * 10)) begun).Inv :=
  ⟨by decide, by decide, fun _ => by constructor <;> decide, fun _ => by decide, by unfold Frame.MarkersExact; decide,
    by decide, by constructor <;> decide⟩
theorem witness_FramesFollowTheMinutes :
    begun.undef = false ∧ begun.active = true ∧ begun.tcnt = 0 ∧ begun.phase = .low ∧ begun.pos = 0 ∧ 59 < 60 ∧
      begun.cfg.e = 10 := by decide
theorem witness_SetTimeWithLegalOperands :
    legalTime tc.cfg.leapY00 (59 : BitVec 6).toNat (23 : BitVec 5).toNat (29 : BitVec 5).toNat (2 : BitVec 4).toNat
      (96 : BitVec 7).toNat = true := by decide
theorem witness_SetTimeWithIllegalOperands :
    legalTime tc.cfg.leapY00 (59 : BitVec 6).toNat (23 : BitVec 5).toNat (29 : BitVec 5).toNat (2 : BitVec 4).toNat
      (97 : BitVec 7).toNat = false := by decide
theorem witness_GetTimeAfterSetTimeIsOneMinuteLater :
    legalTime tc.cfg.leapY00 (58 : BitVec 6).toNat (23 : BitVec 5).toNat (31 : BitVec 5).toNat (12 : BitVec 4).toNat
      (99 : BitVec 7).toNat = true ∧ (58 : BitVec 6).toNat < 59 := by decide
theorem witness_AdvanceMovesOnlyTheCalendar :
    (0x40001801#32).extractLsb' 29 3 = 2#3 ∧ (0x40001801#32).extractLsb' 16 13 = 0#13 ∧
      (0x40010000#32).extractLsb' 29 3 = 2#3 ∧ (0x40010000#32).extractLsb' 16 13 ≠ 0#13 ∧
      last59.undef = false ∧ last59Undef.undef = true := by decide
theorem witness_AdvanceByZeroChangesNothing : last59.Inv ∧ last59.undef = false := ⟨witness_inv_last59, by decide⟩
/-- Both kinds of state that GET_TIME and GET_DOY tell apart. -/
theorem witness_GetTimeReportsTheCalendar : last59.undef = false ∧ last59Undef.undef = true := by decide
theorem witness_GetDoyReportsTheDerivedFields :
    last59Undef.Inv ∧ last59Undef.undef = true ∧ (nextOf (exec .getDoy last59)).isSome = true :=
  ⟨witness_inv_last59Undef, by decide, by decide⟩
theorem witness_BitkindAtReadsTheFrame :
    (0xCC00007B#32).extractLsb' 26 6 = 0b110011#6 ∧ (0xCC00007B#32).extractLsb' 6 20 ≠ 0#20 ∧
      (0xCC00003C#32).extractLsb' 26 6 = 0b110011#6 ∧ (0xCC00003C#32).extractLsb' 6 20 = 0#20 ∧
      60 ≤ ((0xCC00003C#32).extractLsb' 0 6).toNat ∧ (0xCC00003B#32).extractLsb' 26 6 = 0b110011#6 ∧
      (0xCC00003B#32).extractLsb' 6 20 = 0#20 ∧ ((0xCC00003B#32).extractLsb' 0 6).toNat < 60 ∧
      (59 : BitVec 6).toNat = (59 : Fin 60).val ∧ 60 ≤ (60 : BitVec 6).toNat := by decide
theorem witness_BitkindAtReadsTheFrame_inv :
    last59.Inv ∧ (59 : BitVec 6).toNat < 60 ∧ (nextOf (exec (.bitkindAt 59) last59)).isSome = true :=
  ⟨witness_inv_last59, by decide, by decide⟩
theorem witness_ReadBackTimeCanBeReissued :
    last59.undef = false ∧ (nextOf (exec .getTime last59)).map (·.rspData) = some 0x00002200#32 := by decide
theorem witness_calendar_valid :
    (Calendar.atReset false).Valid false ∧ (Calendar.atReset true).Valid true ∧ (Calendar.atReset true).lsw = false :=
  ⟨by constructor <;> decide, by constructor <;> decide, rfl⟩
/-- A valid calendar for each corner of the roll-over: before the end of an hour, of a day, of a month, of the year. -/
theorem witness_RollOverCorners :
    ((at_ 58 0 1 1 0 0).cal.Valid false ∧ (at_ 58 0 1 1 0 0).cal.min.toNat < 59) ∧
      ((at_ 59 22 1 1 0 0).cal.Valid false ∧ (at_ 59 22 1 1 0 0).cal.min = 59#6 ∧
        (at_ 59 22 1 1 0 0).cal.hour.toNat < 23) ∧
      ((at_ 59 23 28 2 24 0).cal.Valid false ∧
        (at_ 59 23 28 2 24 0).cal.day.toNat <
          monthLen (at_ 59 23 28 2 24 0).cal.mon.toNat (at_ 59 23 28 2 24 0).cal.leap) ∧
      ((at_ 59 23 28 2 23 0).cal.Valid false ∧
        (at_ 59 23 28 2 23 0).cal.day.toNat =
          monthLen (at_ 59 23 28 2 23 0).cal.mon.toNat (at_ 59 23 28 2 23 0).cal.leap ∧
        (at_ 59 23 28 2 23 0).cal.mon.toNat < 12) ∧
      ((at_ 59 23 31 12 99 0).cal.Valid false ∧ (at_ 59 23 31 12 99 0).cal.day = 31#5 ∧
        (at_ 59 23 31 12 99 0).cal.mon = 12#4) := by
  refine ⟨⟨?_, by decide⟩, ⟨?_, by decide⟩, ⟨?_, by decide⟩, ⟨?_, by decide⟩, ⟨?_, by decide⟩⟩ <;>
    constructor <;> decide
theorem witness_DayOfYearTableAndRange : 1 ≤ 12 ∧ 12 ≤ 12 ∧ legalTime false 0 0 31 12 24 = true := by decide
theorem witness_AdvancesCompose :
    tc.undef = false ∧ 60 * (4 : BitVec 8).toNat + (15 : BitVec 8).toNat =
      (60 * (0 : BitVec 8).toNat + (255 : BitVec 8).toNat) + (60 * (0 : BitVec 8).toNat + (0 : BitVec 8).toNat) := by
  decide
theorem witness_OnlySetTimeAndResetChangeDst :
    (nextOf (exec (.setTime 0 0 1 1 0 3) tc)).map (·.cal.dst) = some 3#2 ∧ tc.cal.dst = 0#2 ∧
      (nextOf (exec .reset { tc with cal := { tc.cal with lsw := true } })).map (·.cal.lsw) = some false := by decide
theorem witness_FieldWeightsSumToTheValue :
    (at_ 59 23 31 12 24 0).cal.min.toNat ≤ 59 ∧ (at_ 59 23 31 12 24 0).cal.hour.toNat ≤ 23 ∧
      1 ≤ (at_ 59 23 31 12 24 0).cal.doy.toNat ∧ (at_ 59 23 31 12 24 0).cal.doy.toNat ≤ 366 ∧
      (at_ 59 23 31 12 99 0).cal.year.toNat ≤ 99 := by decide
theorem witness_UnusedPositionsAreZero :
    (4 : Fin 60).val ∈ [4, 10, 11, 14, 20, 21, 24, 34, 35, 44, 54] ∧
      (54 : Fin 60).val ∈ [4, 10, 11, 14, 20, 21, 24, 34, 35, 44, 54] := by decide
theorem witness_Dut1FieldIsConstant :
    (34 : Fin 60).val ∈ [34, 35, 40, 41, 42, 43] ∧ (36 : Fin 60).val ∈ [36, 38] ∧ (37 : Fin 60).val = 37 := by decide
theorem witness_FrameDeterminesTheCalendar :
    (Calendar.atReset false).Valid false ∧
      encodeFrame (Calendar.atReset false) .neg = encodeFrame (Calendar.atReset false) .neg :=
  ⟨witness_calendar_valid.1, rfl⟩
/-- A defined calendar that a SET_TIME makes undefined, and a START that leaves it defined; an undefined calendar, a
SET_TIME that keeps it so, an ADVANCE and a read; a tick that ends position 59, and one
that does not. -/
theorem witness_UndefinedFrameIsRedrawnOnlyAtRederivations :
    (last59.undef = false ∧ (nextOf (exec (.setTime 60 0 1 1 0 0) last59)).map (·.undef) = some true ∧
      (nextOf (exec .start last59)).map (·.undef) = some false) ∧
      last59Undef.undef = true ∧
      (last59Undef.active = true ∧ last59Undef.tcnt.toNat + 1 ≠ last59Undef.cfg.lowDur last59Undef.curk ∧
        last59Undef.cfg.e ≤ last59Undef.tcnt.toNat + 1 ∧ last59Undef.pos.val = 59) ∧
      ({ last59Undef with tcnt := 8 }.undef = true ∧
        ¬ { last59Undef with tcnt := 8 }.cfg.e ≤ { last59Undef with tcnt := 8 }.tcnt.toNat + 1) ∧
      [Instr.setTime 60 0 1 1 0 0, .advance 0 0, .getTime].map
        (fun i => (nextOf (exec i last59Undef)).map (·.undef)) = [some true, some true, some true] := by decide
theorem witness_OutputsAndFrameAfterReset :
    nextOf (exec .reset tc) = some tc ∧ tc.cfg.dut1Sign = .neg ∧ tc.cfg.leapY00 = false := by decide
/-- The clauses of what each event writes: a tick before position 59, a change of `ACTIVE`, a change of `UNDEF`. -/
theorem witness_EventsWriteOnlyTheirState :
    (nextOf (exec .tick last58)).isSome = true ∧ last58.pos.val ≠ 59 ∧
      (nextOf (exec .start tc)).map (·.active) = some true ∧ tc.active = false ∧
      (nextOf (exec (.setTime 60 0 1 1 0 0) tc)).map (·.undef) = some true ∧ tc.undef = false ∧
      (Instr.bitkindAt 59).wellFormed = true := by decide
theorem witness_UndefComesAndGoesWithSetTime :
    (nextOf (exec (.setTime 0 0 30 2 24 0) tc)).map (·.undef) = some true ∧ tc.undef = false ∧
      (nextOf (exec (.setTime 0 0 29 2 24 0) last59Undef)).map (·.undef) = some false ∧
      last59Undef.undef = true := by decide
theorem witness_AdvanceTakesEffectFromTheNextBit :
    last58.cfg.wellFormed = true ∧ last58.active = true ∧ last58.undef = false ∧
      last58.tcnt.toNat + 1 = last58.cfg.e ∧ last58.pos.val < 59 := by decide
/-- A START and a legal SET_TIME from an undefined calendar, a read of a defined one; an illegal SET_TIME; a read of an
undefined calendar. -/
theorem witness_RepeatedCommandsAreIdempotent :
    last59Undef.undef = true ∧ (nextOf (exec .start last59Undef)).isSome = true ∧
      legalTime last59Undef.cfg.leapY00 (0 : BitVec 6).toNat (0 : BitVec 5).toNat (29 : BitVec 5).toNat
        (2 : BitVec 4).toNat (24 : BitVec 7).toNat = true ∧
      (nextOf (exec (.setTime 0 0 29 2 24 0) last59Undef)).isSome = true ∧
      last59.undef = false ∧ (nextOf (exec .getTime last59)).isSome = true ∧
      legalTime last59.cfg.leapY00 (0 : BitVec 6).toNat (0 : BitVec 5).toNat (30 : BitVec 5).toNat
        (2 : BitVec 4).toNat (24 : BitVec 7).toNat = false ∧
      (nextOf (exec (.setTime 0 0 30 2 24 0) last59)).isSome = true ∧
      (nextOf (exec .getDoy last59Undef)).isSome = true := by decide
theorem witness_TraceHasOneEntryPerEvent :
    [Event.tick, .reset, .cmd 0x80000000#32].map (fun ev => (waiting [ev.sample] last59).inputs) =
        [[Event.tick.sample], [Event.reset.sample], [(Event.cmd 0x80000000#32).sample]] ∧
      last59.cfg.wellFormed = true ∧ (waiting [{}] last59).inputs = {} :: [] ∧ last59.inputs = [] ∧
      (waiting [{ tick := true, cmd := some 0xFFFFFFFF#32 }] last59).inputs =
        { tick := true, cmd := some 0xFFFFFFFF#32 } :: [] := by decide
/-- A word that matches no row, and one kept out of BITKIND_AT's row by its index alone. -/
theorem witness_MatchAndMaskSelectTheCommands :
    causeOf 0xE0000000#32 = some .reservedOpcode ∧ 0xCC00003C#32 &&& 0xFFFFFFC0#32 = 0xCC000000#32 ∧
      causeOf 0xCC00003C#32 = some .indexRange := by decide

end Sys2Proof.Tests
end

namespace Sys2Proof

/-! ## The accepted configurations (`00_scope.md` R6) -/

theorem Config.strictlyInside_iff (c : Config) (l : Nat) : c.strictlyInside l = true ↔ 1 ≤ l ∧ l < c.e := by
  simp [Config.strictlyInside]

/-- Both one-sided bounds are the bound on the difference, which naturals cannot name. -/
theorem withinTicks_iff (a b d : Nat) : withinTicks a b d = true ↔ |(a : Int) - b| ≤ d := by
  simp only [withinTicks, Bool.and_eq_true, decide_eq_true_eq, abs_le]
  omega

/-- CW1, CW2 and CW3 with the integer differences R6 writes. -/
theorem Config.wellFormed_iff (c : Config) :
    c.wellFormed = true ↔
      (1 ≤ c.lZero ∧ c.lZero < c.e) ∧ (1 ≤ c.lOne ∧ c.lOne < c.e) ∧ (1 ≤ c.lMarker ∧ c.lMarker < c.e) ∧
      c.e ≤ 65535 ∧
      |5 * (c.lZero : Int) - c.e| ≤ 5 ∧ |2 * (c.lOne : Int) - c.e| ≤ 2 ∧ |5 * (c.lMarker : Int) - 4 * c.e| ≤ 5 := by
  simp [Config.wellFormed, Config.strictlyInside_iff, withinTicks_iff, and_assoc]

end Sys2Proof

namespace Sys2Proof.Machine

/-- R6: an ill-formed block takes no event. -/
theorem step_illFormed {s : State} (h : s.cfg.wellFormed = false) : step s = .refused .illFormedConfiguration := by
  simp [step, h]

/-! ## What one event does (`00_scope.md` R2) -/

/-- The state an event leaves. -/
def eventNext (ev : Event) (s : State) : State :=
  match ev with
  | .reset => execNext .reset s
  | .tick => execNext .tick s
  | .cmd w =>
    match decode w with
    | .command i => execNext i s
    | .illegal c => s.commandError c

theorem eventNext_of_command {w : Word} {i : Instr} (h : decode w = .command i) (s : State) :
    eventNext (.cmd w) s = execNext i s := by
  simp [eventNext, h]

theorem eventNext_of_illegal {w : Word} {c : Cause} (h : decode w = .illegal c) (s : State) :
    eventNext (.cmd w) s = s.commandError c := by
  simp [eventNext, h]

/-- An event is a meaning of `exec` or the error response of R77. -/
theorem eventNext_cases (ev : Event) :
    (∃ i, ∀ s, eventNext ev s = execNext i s) ∨ ∃ c, ∀ s, eventNext ev s = s.commandError c := by
  cases ev with
  | reset => exact .inl ⟨.reset, fun _ => rfl⟩
  | tick => exact .inl ⟨.tick, fun _ => rfl⟩
  | cmd w =>
    cases h : decode w with
    | command i => exact .inl ⟨i, eventNext_of_command h⟩
    | illegal c => exact .inr ⟨c, eventNext_of_illegal h⟩

theorem runWord_eq_next (w : Word) (s : State) : runWord w s = .next (eventNext (.cmd w) s) := by
  cases h : decode w with
  | command i => simp only [runWord, h, exec_eq_next, eventNext_of_command h]
  | illegal c => simp only [runWord, h, eventNext_of_illegal h]

theorem runEvent_eq_next (ev : Event) (s : State) : runEvent (some ev) s = .next (eventNext ev s) := by
  cases ev with
  | reset => exact exec_eq_next .reset s
  | tick => exact exec_eq_next .tick s
  | cmd w => exact runWord_eq_next w s

/-- The parameters are no registers (R5). -/
@[simp] theorem execNext_cfg (i : Instr) (s : State) : (execNext i s).cfg = s.cfg := by
  cases i with
  | setTime mi hr dy mo yr ds =>
    rw [execNext_setTime]
    simp only [setTimeCalendar]
    split <;> simp
  | bitkindAt idx =>
    rw [execNext_bitkindAt]
    split <;> rfl
  | tick =>
    rw [execNext_tick]
    split <;> simp
  | advance ah am => simp [execNext_advance]
  | getTime => simp [execNext_getTime]
  | getDoy => simp [execNext_getDoy]
  | nop => rfl
  | start => rfl
  | stop => rfl
  | resume => rfl
  | isActive => rfl
  | getTimer => rfl
  | reset => rfl

@[simp] theorem eventNext_cfg (ev : Event) (s : State) : (eventNext ev s).cfg = s.cfg := by
  obtain ⟨i, h⟩ | ⟨c, h⟩ := eventNext_cases ev
  · rw [h, execNext_cfg]
  · rw [h, State.commandError_cfg]

/-- An event neither reads nor writes the inputs still to come. -/
theorem eventNext_setInputs (ev : Event) (s : State) (l : List PortSample) :
    eventNext ev (s.setInputs l) = (eventNext ev s).setInputs l := by
  obtain ⟨i, h⟩ | ⟨c, h⟩ := eventNext_cases ev
  · rw [h, h, execNext_setInputs]
  · rw [h, h]
    rfl

@[simp] theorem eventNext_inputs (ev : Event) (s : State) : (eventNext ev s).inputs = s.inputs := by
  have h := eventNext_setInputs ev s s.inputs
  rw [State.setInputs_self] at h
  rw [h, State.setInputs_inputs]

@[simp] theorem State.setInputs_outputs (s : State) (l : List PortSample) : (s.setInputs l).outputs = s.outputs := rfl

/-! ## A step of an accepted block, by what the next cycle presents (`00_scope.md` R3) -/

section
variable {s t : State} {ev : Event} {w : Word} {rest : List PortSample} (hw : s.cfg.wellFormed = true)
include hw

/-- A step that takes an event leaves what the event leaves. -/
theorem step_event (h : s.takeEvent = (some ev, t)) : step s = .next (eventNext ev t) := by
  rw [step_wellFormed s hw, h]
  exact runEvent_eq_next ev t

/-- A step that takes no event only takes the cycle off the inputs. -/
theorem step_no_event (h : s.takeEvent = (none, t)) : step s = .next t := by
  rw [step_wellFormed s hw, h]
  rfl

theorem trace_no_event (n : Nat) (h : s.takeEvent = (none, t)) : trace (n + 1) s = trace n t :=
  trace_succ_of_no_event n (step_no_event hw h) (by rw [h])

/-- With `rst` the cycle is RESET alone. -/
theorem step_reset {tick : Bool} {cmd : Option Word}
    (hi : s.inputs = { rst := true, tick := tick, cmd := cmd } :: rest) :
    step s = exec .reset (s.setInputs rest) := by
  rw [step_event hw (s.takeEvent_reset hi), exec_eq_next]
  rfl

/-- Of a cycle with a command and a tick the first step runs the command and leaves the tick to come. -/
theorem step_both (hi : s.inputs = { tick := true, cmd := some w } :: rest) :
    step s = .next ((eventNext (.cmd w) (s.setInputs rest)).setInputs ({ tick := true } :: rest)) := by
  rw [step_event hw (s.takeEvent_both hi), ← eventNext_setInputs, State.setInputs_setInputs]

/-- The tick left by a cycle with a command is applied to the state the command leaves. -/
theorem step_tick_after_command :
    step ((eventNext (.cmd w) (s.setInputs rest)).setInputs ({ tick := true } :: rest)) =
      .next (execNext .tick (eventNext (.cmd w) (s.setInputs rest))) := by
  rw [step_tick _ (by simpa using hw) (State.setInputs_inputs _ _), State.setInputs_setInputs,
    ← eventNext_setInputs, State.setInputs_setInputs]

end

/-! ## The trace of a run of events (`00_scope.md` R10) -/

section
variable {s : State} (hw : s.cfg.wellFormed = true)
include hw

/-- A cycle that presents one event adds one entry. -/
theorem trace_sample {ev : Event} {rest : List PortSample} (hi : s.inputs = ev.sample :: rest) (n : Nat) :
    trace (n + 1) s =
      (eventNext ev (s.setInputs rest)).outputs :: trace n (eventNext ev (s.setInputs rest)) := by
  have ht := s.takeEvent_sample ev rest
  rw [← hi, State.setInputs_self] at ht
  exact trace_succ_of_event n (step_event hw ht) (by rw [ht])

/-- A cycle with a command and a tick adds two entries. -/
theorem trace_both {w : Word} {rest : List PortSample}
    (hi : s.inputs = { tick := true, cmd := some w } :: rest) (n : Nat) :
    trace (n + 2) s =
      (eventNext (.cmd w) (s.setInputs rest)).outputs ::
        (execNext .tick (eventNext (.cmd w) (s.setInputs rest))).outputs ::
          trace n (execNext .tick (eventNext (.cmd w) (s.setInputs rest))) := by
  rw [trace_succ_of_event (n + 1) (step_both hw hi) (by rw [s.takeEvent_both hi]),
    trace_succ_of_event n (step_tick_after_command hw) (by rw [State.takeEvent_tick _ rfl]),
    State.setInputs_outputs]

/-- Used-up inputs add nothing. -/
theorem trace_inputs_nil (hi : s.inputs = []) (n : Nat) : trace n s = [] := by
  induction n with
  | zero => rfl
  | succ n ih => rw [trace_no_event hw n (s.takeEvent_nil hi), ih]

end

/-- Inputs that present one event a cycle give one entry an event. -/
theorem trace_samples_length (evs : List Event) {s : State} (hw : s.cfg.wellFormed = true)
    (hi : s.inputs = evs.map Event.sample) : (trace evs.length s).length = evs.length := by
  induction evs generalizing s with
  | nil => rfl
  | cons ev evs ih =>
    rw [List.length_cons, trace_sample hw hi, List.length_cons, ih (by simpa using hw) (by simp)]

theorem observation_length (evs : List Event) {s : State} (hw : s.cfg.wellFormed = true) :
    (observation evs s).length = evs.length + 1 :=
  trace_samples_length (.reset :: evs) hw rfl

theorem outputs_reset (s : State) :
    (eventNext .reset s).outputs = { dutySel := .low, carrierEn := false, rspData := 0, rspErr := false } := rfl

/-- A run begins with the outputs after RESET (R221). -/
theorem observation_head? (evs : List Event) {s : State} (hw : s.cfg.wellFormed = true) :
    (observation evs s).head? = some { dutySel := .low, carrierEn := false, rspData := 0, rspErr := false } := by
  have hi : (s.startRun evs).inputs = Event.reset.sample :: evs.map Event.sample := rfl
  rw [observation, trace_sample (s := s.startRun evs) hw hi, List.head?_cons, outputs_reset]

/-! ## The obligations -/

/-- Settles O8: the Boolean checks are R6's inequalities, and `step` tests them first. -/
theorem configurationChecks : Obligations.ConfigurationChecks := by
  refine ⟨fun s => ⟨s.cfg.wellFormed_iff, fun h => step_illFormed ?_⟩, by decide, by decide⟩
  rwa [← s.cfg.wellFormed_iff, Bool.not_eq_true] at h

/-- Settles O9: no event stops a block, and an ill-formed one takes none. -/
theorem everyStepHasASuccessor : Obligations.EveryStepHasASuccessor := by
  refine fun s => ⟨fun hw => ?_, step_illFormed⟩
  rw [step_wellFormed s hw]
  exact runEvent_next _ _

/-- Settles O10: the word is the event the step takes, and its event is its command's meaning. -/
theorem stepExecutesThePresentedCommand : Obligations.StepExecutesThePresentedCommand := by
  intro s w i rest hw hd
  have hrun (t : State) : eventNext (.cmd w) t = execNext i t := eventNext_of_command hd t
  refine ⟨fun hi => ?_, fun hi => ?_⟩
  · rw [step_event hw (s.takeEvent_command hi), hrun, exec_eq_next]
    rfl
  · rw [step_event hw (s.takeEvent_both hi), hrun, exec_eq_next]
    rfl

/-- Settles O11: the four cycles without a command, by the event each presents. -/
theorem stepTakesTheEventsOfTheCycle : Obligations.StepTakesTheEventsOfTheCycle := by
  intro s rest tick cmd hw
  refine ⟨fun hi => ?_, step_reset hw, fun hi => step_no_event hw (s.takeEvent_idle hi),
    fun hi => step_no_event hw (s.takeEvent_nil hi)⟩
  rw [step_tick s hw hi, exec_eq_next]
  rfl

/-- Settles O13: the tick left by the first step meets the state the word's event leaves. -/
theorem sameCycleInputsAreSerialised : Obligations.SameCycleInputsAreSerialised := by
  refine fun s rest hw => ⟨fun _ _ => step_reset hw, fun w hi => ?_⟩
  refine ⟨_, _, runWord_eq_next w _, exec_eq_next .tick _, ?_⟩
  rw [run_succ_of_step 1 (step_both hw hi), run_succ_of_step 0 (step_tick_after_command hw), run_zero]
  rfl

/-- Settles O59, cycle by cycle. -/
theorem traceHasOneEntryPerEvent : Obligations.TraceHasOneEntryPerEvent := by
  refine fun s hw => ⟨fun evs => ⟨observation_length evs hw, observation_head? evs hw⟩, fun n ev rest hi => ?_,
    fun n w rest hi => ?_, fun n rest hi => trace_no_event hw n (s.takeEvent_idle hi),
    fun n hi => trace_inputs_nil hw hi n⟩
  · exact ⟨_, runEvent_eq_next ev _, trace_sample hw hi n⟩
  · exact ⟨_, _, runWord_eq_next w _, exec_eq_next .tick _, trace_both hw hi n⟩

end Sys2Proof.Machine

namespace Sys2Proof.Machine

/-! ## The calendar arithmetic keeps the calendar clauses of `10_state.md` R33 (`44_calendar.md` R186) -/

/-- The calendar clauses of R33 without `DOY`, which the carry chain of R184 leaves to its last line. -/
structure Calendar.InRange (y00 : Bool) (c : Calendar) : Prop where
  min_le : c.min.toNat ≤ 59
  hour_le : c.hour.toNat ≤ 23
  mon_pos : 1 ≤ c.mon.toNat
  mon_le : c.mon.toNat ≤ 12
  day_pos : 1 ≤ c.day.toNat
  day_le : c.day.toNat ≤ monthLen c.mon.toNat c.leap
  year_le : c.year.toNat ≤ 99
  leap_eq : c.leap = isLeap y00 c.year.toNat

section
variable {y00 : Bool} {c : Calendar}

theorem Calendar.Valid.inRange (h : c.Valid y00) : c.InRange y00 := { h with }

/-- A day of the year fits `DOY` (R182). -/
theorem Calendar.InRange.deriveDoy_valid (h : c.InRange y00) : c.deriveDoy.Valid y00 := by
  have hdoy := dayOfYear_le h.mon_pos h.mon_le h.day_le
  have hleap := c.leap.toNat_le
  exact { h with doy_eq := Nat.mod_eq_of_lt (by omega) }

/-- January is 31 days long whether the new year is a leap year or not. -/
theorem Calendar.InRange.nextYear (h : c.InRange y00) (hm : c.mon = 1) : (c.nextYear y00).InRange y00 := by
  have hd := h.day_le
  have hy := h.year_le
  rw [hm] at hd
  by_cases h99 : c.year.toNat + 1 = 100
  · rw [Calendar.nextYear_wrap y00 c h99]
    exact { h with day_le := by rw [hm]; exact hd, year_le := Nat.zero_le _, leap_eq := rfl }
  · have hn : (BitVec.ofNat 7 (c.year.toNat + 1)).toNat = c.year.toNat + 1 := Nat.mod_eq_of_lt (by omega)
    rw [Calendar.nextYear_next y00 c h99]
    exact { h with
      day_le := by rw [hm]; exact hd
      year_le := by rw [hn]; omega
      leap_eq := by rw [hn] }

/-- Every month has a day 1. -/
theorem Calendar.InRange.nextMonth (h : c.InRange y00) (hd : c.day = 1) : (c.nextMonth y00).InRange y00 := by
  have hm := h.mon_le
  by_cases h12 : c.mon.toNat + 1 = 13
  · rw [Calendar.nextMonth_wrap y00 c h12]
    exact Calendar.InRange.nextYear { h with
      mon_pos := Nat.le_refl 1
      mon_le := Nat.le_of_ble_eq_true rfl
      day_le := by rw [hd]; exact Nat.le_of_ble_eq_true rfl } rfl
  · have hn : (BitVec.ofNat 4 (c.mon.toNat + 1)).toNat = c.mon.toNat + 1 := Nat.mod_eq_of_lt (by omega)
    rw [Calendar.nextMonth_next y00 c h12]
    refine { h with mon_pos := ?_, mon_le := ?_, day_le := ?_ }
    · rw [hn]; omega
    · rw [hn]; omega
    · rw [hn, hd]
      exact Nat.le_trans (by decide) (monthLen_bounds (by omega) (by omega) _).1

theorem Calendar.InRange.nextDay (h : c.InRange y00) : (c.nextDay y00).InRange y00 := by
  have hlen := monthLen_bounds h.mon_pos h.mon_le c.leap
  by_cases hl : monthLen c.mon.toNat c.leap < c.day.toNat + 1
  · rw [Calendar.nextDay_wrap y00 c hl]
    have h1 : 1 ≤ monthLen c.mon.toNat c.leap := by omega
    exact Calendar.InRange.nextMonth { h with day_pos := Nat.le_refl 1, day_le := h1 } rfl
  · have hn : (BitVec.ofNat 5 (c.day.toNat + 1)).toNat = c.day.toNat + 1 := Nat.mod_eq_of_lt (by omega)
    rw [Calendar.nextDay_next y00 c hl]
    exact { h with day_pos := by rw [hn]; omega, day_le := by rw [hn]; exact Nat.le_of_not_lt hl }

theorem Calendar.InRange.nextHour (h : c.InRange y00) : (c.nextHour y00).InRange y00 := by
  have hh := h.hour_le
  by_cases h24 : c.hour.toNat + 1 = 24
  · rw [Calendar.nextHour_wrap y00 c h24]
    exact Calendar.InRange.nextDay { h with hour_le := Nat.zero_le _ }
  · have hn : (BitVec.ofNat 5 (c.hour.toNat + 1)).toNat = c.hour.toNat + 1 := Nat.mod_eq_of_lt (by omega)
    rw [Calendar.nextHour_next y00 c h24]
    exact { h with hour_le := by rw [hn]; omega }

theorem Calendar.InRange.nextMinute (h : c.InRange y00) : (c.nextMinute y00).InRange y00 := by
  have hm := h.min_le
  by_cases h60 : c.min.toNat + 1 = 60
  · rw [Calendar.nextMinute_wrap y00 c h60]
    exact Calendar.InRange.nextHour { h with min_le := Nat.zero_le _ }
  · have hn : (BitVec.ofNat 6 (c.min.toNat + 1)).toNat = c.min.toNat + 1 := Nat.mod_eq_of_lt (by omega)
    rw [Calendar.nextMinute_next y00 c h60]
    exact { h with min_le := by rw [hn]; omega }

theorem Calendar.Valid.advanceOneMinute (h : c.Valid y00) : (c.advanceOneMinute y00).Valid y00 :=
  h.inRange.nextMinute.deriveDoy_valid

theorem Calendar.Valid.advanceN (h : c.Valid y00) (n : Nat) : (c.advanceN y00 n).Valid y00 := by
  induction n generalizing c with
  | zero => exact h
  | succ n ih => exact ih h.advanceOneMinute

theorem Calendar.atReset_valid (y00 : Bool) : (Calendar.atReset y00).Valid y00 := by
  cases y00 <;> constructor <;> decide

/-- R140: the operands `Legal` accepts (R183), with the registers derived from them, are a valid calendar. -/
theorem Calendar.store_valid {mi : BitVec 6} {hr dy : BitVec 5} {mo : BitVec 4} {yr : BitVec 7} {ds : BitVec 2}
    (h : legalTime y00 mi.toNat hr.toNat dy.toNat mo.toNat yr.toNat = true) :
    ((c.store mi hr dy mo yr ds).deriveLeapDoy y00).Valid y00 := by
  simp only [legalTime, Bool.and_eq_true, decide_eq_true_eq] at h
  obtain ⟨⟨⟨⟨⟨⟨hmi, hhr⟩, hmo1⟩, hmo12⟩, hyr⟩, hdy1⟩, hdy⟩ := h
  exact Calendar.InRange.deriveDoy_valid ⟨hmi, hhr, hmo1, hmo12, hdy1, hdy, hyr, rfl⟩

end

/-! ## The markers of a frame (`43_field_derivation.md` R160) -/

theorem encodeFrame_markersExact (c : Calendar) (sign : Dut1Sign) : (encodeFrame c sign).MarkersExact := by
  intro i
  rw [encodeFrame_get, encodeAt]
  by_cases hi : i.val ∈ markerSet
  · simp [hi]
  · rw [if_neg hi, iff_false_right hi]
    cases hk : (fieldBits c sign).lookup i.val with
    | none => decide
    | some k => exact fieldBits_ne_marker c sign _ (mem_of_lookup hk)

theorem drawnFrame_markersExact (draws : BitVec 60) : (drawnFrame draws).MarkersExact := by
  intro i
  rw [drawnFrame_get]
  by_cases hi : i.val ∈ markerSet
  · simp [hi]
  · rw [if_neg hi, iff_false_right hi]
    exact dataKind_ne_marker _

theorem State.rederive_markersExact (s : State) : s.rederive.frame.MarkersExact := by
  obtain ⟨-, h⟩ | ⟨-, h⟩ := s.rederive_cases
  · rw [h]
    exact encodeFrame_markersExact _ _
  · rw [h]
    exact drawnFrame_markersExact _

/-! ## The operations keep the invariant -/

/-- The clauses of the invariant on the calendar, `UNDEF` and the frame (R22, R26, R160). -/
structure EncoderOk (cfg : Config) (undef : Bool) (cal : Calendar) (frame : Frame) : Prop where
  lsw_zero : cal.lsw = false
  calendar_valid : undef = false → cal.Valid cfg.leapY00
  frame_encodes : undef = false → frame = encodeFrame cal cfg.dut1Sign
  markers_exact : frame.MarkersExact

section
variable {s : State}

theorem State.Inv.encoderOk (h : s.Inv) : EncoderOk s.cfg s.undef s.cal s.frame := { h with }

/-- A re-derivation makes the frame fit whatever calendar stands. -/
theorem State.rederive_encoderOk (hl : s.cal.lsw = false) (hv : s.undef = false → s.cal.Valid s.cfg.leapY00) :
    EncoderOk s.cfg s.undef s.cal s.rederive.frame :=
  ⟨hl, hv, fun h => by rw [s.rederive_defined h], s.rederive_markersExact⟩

/-- The invariant says nothing of `ACTIVE`, the response, the draws and the inputs. -/
theorem State.Inv.unconstrained (h : s.Inv) (active : Bool) (rspData : Word) (rspErr : Bool) (drawNo : Nat)
    (inputs : List PortSample) :
    State.Inv { s with active, rspData, rspErr, drawNo, inputs } :=
  { h with timer_ok := { h.timer_ok with } }

theorem State.Inv.respond (h : s.Inv) (d : Word) : (s.respond d).Inv := h.unconstrained _ _ _ _ _

theorem State.Inv.commandError (h : s.Inv) (c : Cause) : (s.commandError c).Inv := h.unconstrained _ _ _ _ _

theorem State.Inv.setActive (h : s.Inv) (b : Bool) : (s.setActive b).Inv := h.unconstrained _ _ _ _ _

theorem State.Inv.setInputs (h : s.Inv) (l : List PortSample) : (s.setInputs l).Inv := h.unconstrained _ _ _ _ _

theorem State.Inv.afterRead (h : s.Inv) : s.afterRead.Inv := by
  cases hu : s.undef with
  | false => rwa [s.afterRead_defined hu]
  | true =>
    rw [s.afterRead_undefined hu]
    exact h.unconstrained _ _ _ _ _

/-- A bit begun with the kind of its position meets every clause on the timer. -/
theorem State.beginBit_inv (hw : s.cfg.wellFormed = true) (he : EncoderOk s.cfg s.undef s.cal s.frame) :
    (s.beginBit (s.kindAt s.pos)).Inv :=
  { he with
    cfg_ok := hw
    resident_marker := he.markers_exact s.pos
    timer_ok := State.timerOk_of_begun _ hw rfl rfl }

/-! ## The encoder commands keep the invariant (`42_encoder_commands.md` R140, R141) -/

theorem State.advanceCalendar_lsw (s : State) (n : Nat) : (s.advanceCalendar n).cal.lsw = s.cal.lsw := by
  cases h : s.undef with
  | false => simp [s.advanceCalendar_defined n h]
  | true => rw [s.advanceCalendar_undefined n h]

/-- An advance moves the frame with the calendar. -/
theorem EncoderOk.advance (h : EncoderOk s.cfg s.undef s.cal s.frame) (n : Nat) :
    EncoderOk s.cfg s.undef (s.advanceCalendar n).cal (s.advanceCalendar n).rederive.frame := by
  have hv (hu : s.undef = false) : (s.advanceCalendar n).cal.Valid s.cfg.leapY00 := by
    rw [s.advanceCalendar_defined n hu]
    exact (h.calendar_valid hu).advanceN n
  have hl : (s.advanceCalendar n).cal.lsw = false := by rw [s.advanceCalendar_lsw, h.lsw_zero]
  simpa using State.rederive_encoderOk hl (by simpa using hv)

/-- An advance leaves the bit being sent as it is. -/
theorem State.Inv.advance (h : s.Inv) (n : Nat) : (s.advanceCalendar n).rederive.Inv := by
  have he := h.encoderOk.advance n
  exact {
    cfg_ok := by simpa using h.cfg_ok
    lsw_zero := by simpa using he.lsw_zero
    calendar_valid := by simpa using he.calendar_valid
    frame_encodes := by simpa using he.frame_encodes
    markers_exact := he.markers_exact
    resident_marker := by simpa using h.resident_marker
    timer_ok := {
      tcnt_lt := by simpa using h.timer_ok.tcnt_lt
      phase_high := by simpa using h.timer_ok.phase_high
      phase_low := by simpa using h.timer_ok.phase_low } }

section
variable (mi : BitVec 6) (hr dy : BitVec 5) (mo : BitVec 4) (yr : BitVec 7) (ds : BitVec 2) (s : State)

/-- R140: with legal operands the calendar is the one a minute after them. -/
theorem setTimeCalendar_legal (h : undefAfterSet s.cfg mi hr dy mo yr = false) :
    setTimeCalendar mi hr dy mo yr ds s =
      s.setCalendar (((s.cal.store mi hr dy mo yr ds).deriveLeapDoy s.cfg.leapY00).advanceOneMinute
        s.cfg.leapY00) false := by
  simp [setTimeCalendar, h]

/-- R140: illegal operands are stored as they are. -/
theorem setTimeCalendar_illegal (h : undefAfterSet s.cfg mi hr dy mo yr = true) :
    setTimeCalendar mi hr dy mo yr ds s = s.setCalendar (s.cal.store mi hr dy mo yr ds) true := by
  simp [setTimeCalendar, h]

/-- SET_TIME writes the calendar and `UNDEF`, nothing else, before the frame is derived. -/
theorem setTimeCalendar_eq : ∃ c, setTimeCalendar mi hr dy mo yr ds s =
    s.setCalendar c (undefAfterSet s.cfg mi hr dy mo yr) := by
  cases h : undefAfterSet s.cfg mi hr dy mo yr with
  | false => exact ⟨_, setTimeCalendar_legal mi hr dy mo yr ds s h⟩
  | true => exact ⟨_, setTimeCalendar_illegal mi hr dy mo yr ds s h⟩

@[simp] theorem setTimeCalendar_cfg : (setTimeCalendar mi hr dy mo yr ds s).cfg = s.cfg := by
  obtain ⟨c, h⟩ := setTimeCalendar_eq mi hr dy mo yr ds s
  rw [h, State.setCalendar_cfg]

@[simp] theorem setTimeCalendar_undef :
    (setTimeCalendar mi hr dy mo yr ds s).undef = undefAfterSet s.cfg mi hr dy mo yr := by
  obtain ⟨c, h⟩ := setTimeCalendar_eq mi hr dy mo yr ds s
  rw [h, State.setCalendar_undef]

@[simp] theorem setTimeCalendar_active : (setTimeCalendar mi hr dy mo yr ds s).active = s.active := by
  obtain ⟨c, h⟩ := setTimeCalendar_eq mi hr dy mo yr ds s
  rw [h, State.setCalendar_active]

theorem setTimeCalendar_lsw : (setTimeCalendar mi hr dy mo yr ds s).cal.lsw = s.cal.lsw := by
  cases h : undefAfterSet s.cfg mi hr dy mo yr with
  | false =>
    rw [setTimeCalendar_legal mi hr dy mo yr ds s h, State.setCalendar_cal, Calendar.advanceOneMinute_lsw]
    rfl
  | true =>
    rw [setTimeCalendar_illegal mi hr dy mo yr ds s h]
    rfl

theorem setTimeCalendar_valid (h : undefAfterSet s.cfg mi hr dy mo yr = false) :
    (setTimeCalendar mi hr dy mo yr ds s).cal.Valid s.cfg.leapY00 := by
  rw [setTimeCalendar_legal mi hr dy mo yr ds s h, State.setCalendar_cal]
  rw [undefAfterSet, Bool.not_eq_false'] at h
  exact (Calendar.store_valid h).advanceOneMinute

variable {s}

/-- SET_TIME begins position 0, which every frame marks. -/
theorem State.Inv.setTime (h : s.Inv) : (execNext (.setTime mi hr dy mo yr ds) s).Inv := by
  have he := State.rederive_encoderOk (s := setTimeCalendar mi hr dy mo yr ds s)
    (by rw [setTimeCalendar_lsw, h.lsw_zero])
    (by simpa using setTimeCalendar_valid mi hr dy mo yr ds s)
  have hk : (setTimeCalendar mi hr dy mo yr ds s).rederive.kindAt 0 = .marker :=
    (he.markers_exact 0).2 (by decide)
  have hbegun := State.beginBit_inv (s := (setTimeCalendar mi hr dy mo yr ds s).rederive.setPos 0)
    (by simpa using h.cfg_ok) (by simpa using he)
  rw [execNext_setTime, ← hk]
  exact hbegun.respond 0

end

/-! ## A tick keeps the invariant (`41_bit_scheduler.md` R121) -/

/-- The counter does not overflow while the bit lasts. -/
theorem nextCount_toNat (hw : s.cfg.wellFormed = true) (h : s.tcnt.toNat + 1 < s.cfg.e) :
    (BitVec.ofNat 16 (nextCount s.tcnt)).toNat = s.tcnt.toNat + 1 := by
  have he := (Config.wellFormed_bounds hw).1
  exact Nat.mod_eq_of_lt (by rw [nextCount]; omega)

/-- Step 2: the count has reached the low-duration, which is below `E`. -/
theorem State.Inv.toHigh (h : s.Inv) (hn : s.tcnt.toNat + 1 = s.cfg.lowDur s.curk) :
    ((s.setPhase .high).setTcnt (nextCount s.tcnt)).Inv := by
  have hlt : s.tcnt.toNat + 1 < s.cfg.e := hn ▸ ((Config.wellFormed_bounds h.cfg_ok).2 s.curk).2
  have hv := nextCount_toNat h.cfg_ok hlt
  refine { h with timer_ok := ⟨?_, fun _ => ?_, nofun⟩ }
  · rwa [State.setTcnt_tcnt, hv]
  · rw [State.setTcnt_tcnt, hv]
    exact hn.ge

/-- A tick that only counts passes neither the low-duration nor `E`. -/
theorem State.Inv.count (h : s.Inv) (hn : s.tcnt.toNat + 1 ≠ s.cfg.lowDur s.curk) (hlt : s.tcnt.toNat + 1 < s.cfg.e) :
    (s.setTcnt (nextCount s.tcnt)).Inv := by
  have hv := nextCount_toNat h.cfg_ok hlt
  refine { h with timer_ok := ⟨?_, fun hp => ?_, fun hp => ?_⟩ }
  · rwa [State.setTcnt_tcnt, hv]
  · rw [State.setTcnt_tcnt, hv]
    exact Nat.le_succ_of_le (h.timer_ok.phase_high hp)
  · rw [State.setTcnt_tcnt, hv]
    exact Nat.lt_of_le_of_ne (h.timer_ok.phase_low hp) hn

/-- The end of a bit: the calendar may advance, and the next position begins with its kind. -/
theorem State.Inv.endBit (h : s.Inv) : s.endBit.Inv := by
  rw [State.endBit]
  split
  · refine State.beginBit_inv (by simpa using h.cfg_ok) ?_
    simpa [State.advanceOneMinute] using EncoderOk.advance (s := s.setPos (nextPosition s.pos)) h.encoderOk 1
  · exact State.beginBit_inv h.cfg_ok h.encoderOk

theorem State.Inv.tick (h : s.Inv) : (execNext .tick s).Inv := by
  rw [execNext_tick]
  obtain ⟨he, -⟩ | ⟨he, -, hn⟩ | ⟨he, -⟩ | ⟨he, -, hn, hlt⟩ := tickEffect_cases s.cfg s.active s.curk s.tcnt
  · rwa [he]
  · rw [he]
    exact h.toHigh hn
  · rw [he]
    exact h.endBit
  · rw [he]
    exact h.count hn hlt

/-! ## Reset -/

theorem State.resetFor_inv {c : Config} (hw : c.wellFormed = true) : (State.resetFor c).Inv where
  cfg_ok := hw
  lsw_zero := rfl
  calendar_valid _ := Calendar.atReset_valid c.leapY00
  frame_encodes _ := rfl
  markers_exact := encodeFrame_markersExact _ _
  resident_marker := iff_of_true rfl (by decide : 0 ∈ markerSet)
  timer_ok := State.timerOk_of_begun _ hw rfl rfl

/-! ## Every event keeps the invariant -/

theorem State.Inv.execNext (h : s.Inv) (i : Instr) : (execNext i s).Inv := by
  cases i with
  | nop => exact h.respond _
  | setTime mi hr dy mo yr ds => exact h.setTime mi hr dy mo yr ds
  | advance ah am => exact (h.advance _).respond _
  | start => exact (State.beginBit_inv (s := s.setActive true) h.cfg_ok h.encoderOk).respond _
  | stop => exact (h.setActive _).respond _
  | resume => exact (h.setActive _).respond _
  | isActive => exact h.respond _
  | getTime => exact h.afterRead.respond _
  | getDoy => exact h.afterRead.respond _
  | bitkindAt idx =>
    rw [execNext_bitkindAt]
    split
    · exact h.respond _
    · exact h.commandError _
  | getTimer => exact h.respond _
  | tick => exact h.tick
  | reset => exact (State.resetFor_inv h.cfg_ok).unconstrained _ _ _ _ _

theorem State.Inv.eventNext (h : s.Inv) (ev : Event) : (eventNext ev s).Inv := by
  obtain ⟨i, hi⟩ | ⟨c, hc⟩ := eventNext_cases ev
  · rw [hi]
    exact h.execNext i
  · rw [hc]
    exact h.commandError c

end

/-! ## What an instruction leaves unchanged (`10_state.md` R39) -/

section
variable (s : State)

@[simp] theorem execNext_inputs (i : Instr) : (execNext i s).inputs = s.inputs := by
  have h := execNext_setInputs i s s.inputs
  rw [State.setInputs_self] at h
  rw [h, State.setInputs_inputs]

@[simp] theorem State.endBit_undef : s.endBit.undef = s.undef := by
  unfold State.endBit; dsimp only; split <;> simp

theorem execNext_tick_active : (execNext .tick s).active = s.active := by
  rw [execNext_tick]
  split <;> simp

theorem execNext_tick_undef : (execNext .tick s).undef = s.undef := by
  rw [execNext_tick]
  split <;> simp

theorem execNext_tick_response :
    (execNext .tick s).rspData = s.rspData ∧ (execNext .tick s).rspErr = s.rspErr := by
  rw [execNext_tick]
  split <;> simp

/-- Only the wrap of the position moves the calendar and the frame (R121). -/
theorem execNext_tick_encoder {s : State} (h : s.pos.val ≠ 59) :
    (execNext .tick s).cal = s.cal ∧ (execNext .tick s).frame = s.frame := by
  have hend := s.endBit_of_lt (by omega)
  rw [execNext_tick]
  split <;> simp [hend]

theorem execNext_setTime_undef (mi : BitVec 6) (hr dy : BitVec 5) (mo : BitVec 4) (yr : BitVec 7) (ds : BitVec 2) :
    (execNext (.setTime mi hr dy mo yr ds) s).undef = undefAfterSet s.cfg mi hr dy mo yr := by
  simp [execNext_setTime]

/-- NOP and the READs, which only answer (R101, R105, R125, R142 to R144). -/
def onlyAnswers : Instr → Bool
  | .nop | .isActive | .getTime | .getDoy | .bitkindAt _ | .getTimer => true
  | .setTime _ _ _ _ _ _ | .advance _ _ | .start | .stop | .resume | .tick | .reset => false

/-- An instruction that only answers writes the response registers and may use up a draw. -/
theorem execNext_of_onlyAnswers {i : Instr} (h : onlyAnswers i = true) :
    ∃ d e n, execNext i s = { s with rspData := d, rspErr := e, drawNo := n } := by
  have hread : ∃ n, s.afterRead = { s with drawNo := n } := by
    unfold State.afterRead
    split <;> exact ⟨_, rfl⟩
  obtain ⟨n, hn⟩ := hread
  cases i with
  | nop | isActive | getTimer => exact ⟨_, _, _, rfl⟩
  | getTime => exact ⟨_, _, n, by rw [execNext_getTime, hn]; rfl⟩
  | getDoy => exact ⟨_, _, n, by rw [execNext_getDoy, hn]; rfl⟩
  | bitkindAt idx =>
    rw [execNext_bitkindAt]
    split <;> exact ⟨_, _, _, rfl⟩
  | setTime | advance | start | stop | resume | tick | reset => cases h

theorem execNext_keeps_encoder {i : Instr} (h : i = .start ∨ i = .stop ∨ i = .resume ∨ onlyAnswers i = true) :
    (execNext i s).cal = s.cal ∧ (execNext i s).frame = s.frame ∧ (execNext i s).pos = s.pos := by
  obtain rfl | rfl | rfl | h := h
  · exact ⟨rfl, rfl, rfl⟩
  · exact ⟨rfl, rfl, rfl⟩
  · exact ⟨rfl, rfl, rfl⟩
  · obtain ⟨d, e, n, h⟩ := execNext_of_onlyAnswers s h
    simp [h]

theorem execNext_keeps_timer {i : Instr}
    (h : i = .stop ∨ i = .resume ∨ onlyAnswers i = true ∨ ∃ ah am, i = .advance ah am) :
    (execNext i s).tcnt = s.tcnt ∧ (execNext i s).phase = s.phase ∧ (execNext i s).curk = s.curk ∧
      (execNext i s).pos = s.pos := by
  obtain rfl | rfl | h | ⟨ah, am, rfl⟩ := h
  · exact ⟨rfl, rfl, rfl, rfl⟩
  · exact ⟨rfl, rfl, rfl, rfl⟩
  · obtain ⟨d, e, n, h⟩ := execNext_of_onlyAnswers s h
    simp [h]
  · simp [execNext_advance]

/-- Which instructions write `ACTIVE` (R31). -/
theorem execNext_active_cases (i : Instr) :
    (execNext i s).active = s.active ∨ i = .reset ∨ i = .start ∨ i = .stop ∨ i = .resume := by
  have hans (h : onlyAnswers i = true) : (execNext i s).active = s.active := by
    obtain ⟨d, e, n, h⟩ := execNext_of_onlyAnswers s h
    rw [h]
  cases i with
  | setTime mi hr dy mo yr ds => simp [execNext_setTime]
  | advance ah am => simp [execNext_advance]
  | tick => exact .inl (execNext_tick_active s)
  | start | stop | resume | reset => simp
  | nop | isActive | getTime | getDoy | bitkindAt | getTimer => exact .inl (hans rfl)

/-- Which instructions write `UNDEF` (R25). -/
theorem execNext_undef_cases (i : Instr) :
    (execNext i s).undef = s.undef ∨ i = .reset ∨ ∃ mi hr dy mo yr ds, i = .setTime mi hr dy mo yr ds := by
  have hans (h : onlyAnswers i = true) : (execNext i s).undef = s.undef := by
    obtain ⟨d, e, n, h⟩ := execNext_of_onlyAnswers s h
    rw [h]
  cases i with
  | setTime | reset => simp
  | advance ah am => simp [execNext_advance]
  | tick => exact .inl (execNext_tick_undef s)
  | start | stop | resume => exact .inl rfl
  | nop | isActive | getTime | getDoy | bitkindAt | getTimer => exact .inl (hans rfl)

/-- A legal command answers without error (R200). -/
theorem execNext_rspErr {i : Instr} (hr : i ≠ .reset) (ht : i ≠ .tick) (hi : i.wellFormed = true) :
    (execNext i s).rspErr = false := by
  cases i with
  | reset => exact absurd rfl hr
  | tick => exact absurd rfl ht
  | bitkindAt idx =>
    have hp : framePosition idx = some ⟨idx.toNat, of_decide_eq_true hi⟩ := dif_pos _
    rw [execNext_bitkindAt, hp]
    rfl
  | _ => rfl

end

theorem execNext_eq_of_exec {i : Instr} {s t : State} (h : exec i s = .next t) : execNext i s = t := by
  rwa [exec_eq_next, Host.Outcome.next.injEq] at h

/-! ## The obligations -/

/-- Settles O58: a step takes inputs off the list, then runs at most one event. -/
theorem everyStepKeepsTheInvariant : Obligations.EveryStepKeepsTheInvariant := by
  intro s h
  obtain ⟨l, hl⟩ := s.takeEvent_setInputs
  have ht : s.takeEvent.2.Inv := hl ▸ h.setInputs l
  cases hev : s.takeEvent.1 with
  | none => exact ⟨_, step_no_event h.cfg_ok (Prod.ext hev rfl), ht⟩
  | some ev => exact ⟨_, step_event h.cfg_ok (Prod.ext hev rfl), ht.eventNext ev⟩

/-- Settles O57. -/
theorem resetMeetsTheInvariant : Obligations.ResetMeetsTheInvariant :=
  ⟨fun _ => State.resetFor_inv, State.resetFor_inv (by decide)⟩

/-- Settles O53, register by register. -/
theorem eventsWriteOnlyTheirState : Obligations.EventsWriteOnlyTheirState := by
  intro i s t hexec
  obtain rfl := execNext_eq_of_exec hexec
  refine ⟨execNext_cfg i s, execNext_inputs s i, fun h => execNext_keeps_encoder s ?_,
    fun h => execNext_keeps_timer s ?_, ?_, ?_, (execNext_active_cases s i).resolve_left,
    (execNext_undef_cases s i).resolve_left, execNext_rspErr s⟩
  · rcases h with rfl | rfl | rfl | rfl | rfl | rfl | rfl | rfl | ⟨idx, rfl⟩ <;> simp [onlyAnswers]
  · rcases h with rfl | rfl | rfl | rfl | rfl | rfl | rfl | ⟨idx, rfl⟩ | ⟨ah, am, rfl⟩ <;> simp [onlyAnswers]
  · rintro rfl
    exact ⟨execNext_tick_active s, execNext_tick_response s⟩
  · rintro rfl hpos
    exact execNext_tick_encoder hpos

/-- Settles O54: of the two writers RESET clears `UNDEF` and SET_TIME sets it by the legality of its operands. -/
theorem undefComesAndGoesWithSetTime : Obligations.UndefComesAndGoesWithSetTime := by
  intro i s t hexec
  obtain rfl := execNext_eq_of_exec hexec
  obtain h | rfl | ⟨mi, hr, dy, mo, yr, ds, rfl⟩ := execNext_undef_cases s i
  · rw [h]
    exact ⟨fun h0 h1 => absurd (h0.symm.trans h1) nofun, fun h1 h0 => absurd (h0.symm.trans h1) nofun⟩
  · exact ⟨nofun, fun _ _ => .inl rfl⟩
  · rw [execNext_setTime_undef, undefAfterSet, Bool.not_eq_true', Bool.not_eq_false']
    exact ⟨fun _ hill => ⟨mi, hr, dy, mo, yr, ds, rfl, hill⟩,
      fun _ hleg => .inr ⟨mi, hr, dy, mo, yr, ds, rfl, hleg⟩⟩

/-- Settles O51: RESET writes the reset registers of R38 for the block's own parameters. -/
theorem resetValues : Obligations.ResetValues := fun s =>
  ⟨_, exec_eq_next .reset s, by simp [execNext_reset, State.resetFor, Calendar.atReset]⟩

end Sys2Proof.Machine

namespace Sys2Proof.Machine

/-! ## A command given twice (`20_memory.md` R55) -/

/-- A legal SET_TIME writes every calendar register but `LSW` (R140, R187). -/
theorem Calendar.deriveLeapDoy_store_congr {c c' : Calendar} (h : c.lsw = c'.lsw) (y00 : Bool) (mi : BitVec 6)
    (hr dy : BitVec 5) (mo : BitVec 4) (yr : BitVec 7) (ds : BitVec 2) :
    (c.store mi hr dy mo yr ds).deriveLeapDoy y00 = (c'.store mi hr dy mo yr ds).deriveLeapDoy y00 := by
  simp [Calendar.store, Calendar.deriveLeapDoy, Calendar.deriveDoy, h]

section
variable (s : State)

section
variable {mi : BitVec 6} {hr dy : BitVec 5} {mo : BitVec 4} {yr : BitVec 7}

/-- SET_TIME with legal operands (R140): the frame is that of the calendar it leaves. -/
theorem execNext_setTime_legal (ds : BitVec 2) (h : undefAfterSet s.cfg mi hr dy mo yr = false) :
    execNext (.setTime mi hr dy mo yr ds) s =
      { s with
        cal := (setTimeCalendar mi hr dy mo yr ds s).cal
        frame := encodeFrame (setTimeCalendar mi hr dy mo yr ds s).cal s.cfg.dut1Sign
        undef := false, pos := 0, tcnt := 0, phase := .low, curk := .marker, rspData := 0, rspErr := false } := by
  rw [execNext_setTime, setTimeCalendar_legal mi hr dy mo yr ds s h, State.rederive_defined _ rfl]
  rfl

/-- SET_TIME with illegal operands (R140): they are stored as given, and the frame is the next draw. -/
theorem execNext_setTime_illegal (ds : BitVec 2) (h : undefAfterSet s.cfg mi hr dy mo yr = true) :
    execNext (.setTime mi hr dy mo yr ds) s =
      { s with
        cal := s.cal.store mi hr dy mo yr ds
        frame := drawnFrame (Config.drawFrame s.drawNo), drawNo := s.drawNo + 1
        undef := true, pos := 0, tcnt := 0, phase := .low, curk := .marker, rspData := 0, rspErr := false } := by
  rw [execNext_setTime, setTimeCalendar_illegal mi hr dy mo yr ds s h, State.rederive_undefined _ rfl]
  rfl

/-- Of the calendar before it a legal SET_TIME keeps `LSW` alone (R187). -/
theorem setTimeCalendar_cal_congr {s t : State} (ds : BitVec 2) (hcfg : t.cfg = s.cfg)
    (hlsw : t.cal.lsw = s.cal.lsw) (h : undefAfterSet s.cfg mi hr dy mo yr = false) :
    (setTimeCalendar mi hr dy mo yr ds t).cal = (setTimeCalendar mi hr dy mo yr ds s).cal := by
  rw [setTimeCalendar_legal mi hr dy mo yr ds t (hcfg ▸ h), setTimeCalendar_legal mi hr dy mo yr ds s h,
    State.setCalendar_cal, State.setCalendar_cal, hcfg, Calendar.deriveLeapDoy_store_congr hlsw]

/-- The second legal SET_TIME leaves the calendar of the first, and so its frame. -/
theorem execNext_setTime_legal_twice (ds : BitVec 2) (h : undefAfterSet s.cfg mi hr dy mo yr = false) :
    execNext (.setTime mi hr dy mo yr ds) (execNext (.setTime mi hr dy mo yr ds) s) =
      execNext (.setTime mi hr dy mo yr ds) s := by
  have hlsw : (execNext (.setTime mi hr dy mo yr ds) s).cal.lsw = s.cal.lsw := by
    rw [execNext_setTime_legal s ds h, setTimeCalendar_lsw]
  rw [execNext_setTime_legal (execNext _ s) ds (by rwa [execNext_cfg]),
    setTimeCalendar_cal_congr ds (execNext_cfg _ s) hlsw h, execNext_setTime_legal s ds h]

/-- The second illegal SET_TIME stores the same operands and draws another frame. -/
theorem execNext_setTime_illegal_twice (ds : BitVec 2) (h : undefAfterSet s.cfg mi hr dy mo yr = true) :
    ∃ f n, Frame.MarkersExact f ∧
      execNext (.setTime mi hr dy mo yr ds) (execNext (.setTime mi hr dy mo yr ds) s) =
        { execNext (.setTime mi hr dy mo yr ds) s with frame := f, drawNo := n } := by
  refine ⟨drawnFrame (Config.drawFrame (s.drawNo + 1)), s.drawNo + 2, drawnFrame_markersExact _, ?_⟩
  rw [execNext_setTime_illegal (execNext _ s) ds (by rwa [execNext_cfg]), execNext_setTime_illegal s ds h]
  rfl

end

/-- GET_TIME of a defined calendar answers its registers and draws nothing (R142). -/
theorem execNext_getTime_defined (h : s.undef = false) :
    execNext .getTime s =
      s.respond (timeWord s.cal.min s.cal.hour s.cal.day s.cal.mon s.cal.year s.cal.dst) := by
  rw [execNext_getTime, s.afterRead_defined h, s.readTime_defined h]

/-- GET_DOY of a defined calendar answers its registers and draws nothing (R143). -/
theorem execNext_getDoy_defined (h : s.undef = false) :
    execNext .getDoy s = s.respond (doyWord s.cal.doy s.cal.leap s.cal.lsw) := by
  rw [execNext_getDoy, s.afterRead_defined h, s.readTime_defined h]

/-- A read of a defined calendar answers from registers it does not write. -/
theorem execNext_read_twice_of_defined {i : Instr} (hi : i = .getTime ∨ i = .getDoy) (h : s.undef = false) :
    execNext i (execNext i s) = execNext i s := by
  obtain rfl | rfl := hi
  · rw [execNext_getTime_defined s h, execNext_getTime_defined (s.respond _) h]
    rfl
  · rw [execNext_getDoy_defined s h, execNext_getDoy_defined (s.respond _) h]
    rfl

/-- A second read writes the answer and may use up a draw; `RSP_ERR` is 0 already (R200). -/
theorem execNext_read_twice {i : Instr} (hi : i = .getTime ∨ i = .getDoy) :
    ∃ d n, execNext i (execNext i s) = { execNext i s with rspData := d, drawNo := n } := by
  have herr (t : State) : (execNext i t).rspErr = false := by obtain rfl | rfl := hi <;> rfl
  have hans : onlyAnswers i = true := by obtain rfl | rfl := hi <;> rfl
  obtain ⟨d, e, n, h⟩ := execNext_of_onlyAnswers (execNext i s) hans
  have he : e = (execNext i s).rspErr := by rw [herr s, ← herr (execNext i s), h]
  exact ⟨d, n, by rw [h, he]⟩

/-- BITKIND_AT answers from the frame, which it leaves, and refuses by its index alone. -/
theorem execNext_bitkindAt_twice (idx : BitVec 6) :
    execNext (.bitkindAt idx) (execNext (.bitkindAt idx) s) = execNext (.bitkindAt idx) s := by
  cases h : framePosition idx with
  | none | some p =>
    simp only [execNext_bitkindAt, h]
    rfl

/-! ## An ADVANCE and the tick after it (`20_memory.md` R59) -/

/-- ADVANCE of a defined calendar moves the calendar and the frame and answers 0 (R141). -/
theorem execNext_advance_defined (ah am : BitVec 8) (h : s.undef = false) :
    execNext (.advance ah am) s =
      { s with
        cal := s.cal.advanceN s.cfg.leapY00 (advanceMinutes ah am)
        frame := encodeFrame (s.cal.advanceN s.cfg.leapY00 (advanceMinutes ah am)) s.cfg.dut1Sign
        rspData := 0, rspErr := false } := by
  rw [execNext_advance, State.rederive_defined _ (by rwa [State.advanceCalendar_undef]), s.advanceCalendar_defined _ h]
  rfl

end

/-! ## The obligations -/

/-- Settles O56, instruction by instruction: what a meaning reads is what it leaves. -/
theorem repeatedCommandsAreIdempotent : Obligations.RepeatedCommandsAreIdempotent := by
  refine ⟨fun i s t htick hadv hread hset hexec => ?_, fun s t mi hr dy mo yr ds hill hexec => ?_,
    fun i s t hi hexec => ?_⟩
  · obtain rfl := execNext_eq_of_exec hexec
    have hdef (hi : i = .getTime ∨ i = .getDoy) : s.undef = false :=
      Bool.eq_false_of_not_eq_true fun hu => hi.elim (hread hu).1 (hread hu).2
    rw [exec_eq_next, Host.Outcome.next.injEq]
    cases i with
    | nop | start | stop | resume | isActive | getTimer | reset => rfl
    | setTime mi hr dy mo yr ds =>
      refine execNext_setTime_legal_twice s ds ?_
      rw [undefAfterSet, hset mi hr dy mo yr ds rfl, Bool.not_true]
    | getTime => exact execNext_read_twice_of_defined s (.inl rfl) (hdef (.inl rfl))
    | getDoy => exact execNext_read_twice_of_defined s (.inr rfl) (hdef (.inr rfl))
    | bitkindAt idx => exact execNext_bitkindAt_twice s idx
    | tick => exact absurd rfl htick
    | advance ah am => exact absurd rfl (hadv ah am)
  · obtain rfl := execNext_eq_of_exec hexec
    simp only [exec_eq_next, Host.Outcome.next.injEq]
    exact execNext_setTime_illegal_twice s ds (by rw [undefAfterSet, hill, Bool.not_false])
  · obtain rfl := execNext_eq_of_exec hexec
    simp only [exec_eq_next, Host.Outcome.next.injEq]
    exact execNext_read_twice s hi

/-- Settles O55: ADVANCE leaves the timer, so the tick still ends the bit, and the next one is read from the frame
ADVANCE derived. -/
theorem advanceTakesEffectFromTheNextBit : Obligations.AdvanceTakesEffectFromTheNextBit := by
  intro s ah am hw hact hdef hlast hpos
  have hadv := execNext_advance_defined s ah am hdef
  have htick : execNext .tick (execNext (.advance ah am) s) = (execNext (.advance ah am) s).endBit :=
    execNext_tick_end _ (by rwa [execNext_cfg]) (by rwa [hadv]) (by rwa [hadv])
  refine ⟨_, _, exec_eq_next _ s, by rw [hadv], exec_eq_next .tick _, ?_⟩
  rw [htick, State.endBit_of_lt _ (by rwa [hadv]), hadv]
  exact ⟨nextPosition_val_of_lt hpos, rfl⟩

end Sys2Proof.Machine

namespace Sys2Proof

/-! ## Format R: a word is its four fields (`30_encoding.md` R75) -/

theorem word_eq_of_read {v w : Word} (ho : v.extractLsb' 29 3 = w.extractLsb' 29 3)
    (hs : v.extractLsb' 26 3 = w.extractLsb' 26 3) (hr : v.extractLsb' 6 20 = w.extractLsb' 6 20)
    (hi : v.extractLsb' 0 6 = w.extractLsb' 0 6) : v = w := by
  refine word_eq_of_operation ho (BitVec.eq_of_toNat_eq ?_)
  have hs := congrArg BitVec.toNat hs
  have hr := congrArg BitVec.toNat hr
  have hi := congrArg BitVec.toNat hi
  simp only [extractLsb'_toNat_div] at hs hr hi ⊢
  omega

/-! ## What the decoder answers by the fields of the word (R77) -/

section
variable {w : Word}

theorem decode_of_op_setTime (ho : w.extractLsb' 29 3 = 1#3) :
    decode w = .command (.setTime (w.extractLsb' 23 6) (w.extractLsb' 18 5) (w.extractLsb' 13 5)
      (w.extractLsb' 9 4) (w.extractLsb' 2 7) (w.extractLsb' 0 2)) := by
  simpa [ho] using decode_op_cases w

theorem decode_of_op_advance (ho : w.extractLsb' 29 3 = 2#3) (hr : w.extractLsb' 16 13 = 0#13) :
    decode w = .command (.advance (w.extractLsb' 8 8) (w.extractLsb' 0 8)) := by
  simpa [ho, hr] using decode_op_cases w

theorem decode_of_op_read (ho : w.extractLsb' 29 3 = 6#3) :
    decode w = decodeRead (w.extractLsb' 26 3) (w.extractLsb' 6 20) (w.extractLsb' 0 6) := by
  simpa [ho] using decode_op_cases w

theorem decodeRead_bitkindAt {idx : BitVec 6} (hi : idx.toNat < 60) :
    decodeRead 3#3 0#20 idx = .command (.bitkindAt idx) := by
  simpa [hi, Nat.not_le.mpr hi] using decodeRead_cases 3#3 0#20 idx

end

/-! ## Decoder and encoder are inverse to each other (R77, R83) -/

/-- The encoder's word is read back field by field. -/
theorem decode_of_encode {i : Instr} {w : Word} (hi : i.wellFormed = true) (he : encode i = some w) :
    decode w = .command i := by
  cases i with
  | nop | start | stop | resume | isActive | getTime | getDoy | getTimer =>
    cases he
    decide
  | setTime mi hr dy mo yr ds =>
    obtain rfl : setTimeWord mi hr dy mo yr ds = w := Option.some.inj he
    rw [decode_of_op_setTime (setTimeWord_op ..), setTimeWord_mi, setTimeWord_hr, setTimeWord_dy, setTimeWord_mo,
      setTimeWord_yr, setTimeWord_ds]
  | advance ah am =>
    obtain rfl : advanceWord ah am = w := Option.some.inj he
    rw [decode_of_op_advance (advanceWord_op ..) (advanceWord_reserved ..), advanceWord_ah, advanceWord_am]
  | bitkindAt idx =>
    obtain rfl : bitkindAtWord idx = w := Option.some.inj he
    rw [decode_of_op_read (bitkindAtWord_op _), bitkindAtWord_sel, bitkindAtWord_reserved, bitkindAtWord_idx]
    exact decodeRead_bitkindAt (of_decide_eq_true hi)
  | tick | reset => cases he

/-- Format R (R75): with the reserved bits 0 the selector and the index fix the word. -/
theorem encode_of_decodeRead {w : Word} {i : Instr} (ho : w.extractLsb' 29 3 = 6#3)
    (hd : decodeRead (w.extractLsb' 26 3) (w.extractLsb' 6 20) (w.extractLsb' 0 6) = .command i) :
    i.wellFormed = true ∧ encode i = some w := by
  have hword {v : Word} (hv : v.extractLsb' 29 3 = 6#3) (hs : v.extractLsb' 26 3 = w.extractLsb' 26 3)
      (hr : v.extractLsb' 6 20 = w.extractLsb' 6 20) (hi : v.extractLsb' 0 6 = w.extractLsb' 0 6) :
      some v = some w := congrArg some (word_eq_of_read (hv.trans ho.symm) hs hr hi)
  rcases decodeRead_cases (w.extractLsb' 26 3) (w.extractLsb' 6 20) (w.extractLsb' 0 6) with
    ⟨-, h⟩ | ⟨-, -, h⟩ | ⟨-, -, -, h⟩ | ⟨hs, hr, hi, h⟩ | ⟨hs, hr, hi, h⟩ | ⟨hs, hr, hi, h⟩ |
    ⟨hs, hr, hi, h⟩ | ⟨hs, hr, hi, h⟩ <;> cases h.symm.trans hd
  case inr.inr.inr.inl => exact ⟨decide_eq_true hi, congrArg some (bitkindAtWord_fields ho hs hr)⟩
  all_goals exact ⟨rfl, hword rfl hs.symm hr.symm hi.symm⟩

/-- A command's word is the only one the decoder reads as that command. -/
theorem encode_of_decode {w : Word} {i : Instr} (hd : decode w = .command i) :
    i.wellFormed = true ∧ encode i = some w := by
  have hword {v : Word} (ho : v.extractLsb' 29 3 = w.extractLsb' 29 3)
      (hr : v.extractLsb' 0 29 = w.extractLsb' 0 29) : some v = some w := congrArg some (word_eq_of_operation ho hr)
  rcases decode_op_cases w with
    ⟨-, h⟩ | ⟨-, -, h⟩ | ⟨ho, hr, h⟩ | ⟨ho, hr, h⟩ | ⟨ho, hr, h⟩ | ⟨ho, hr, h⟩ | ⟨ho, h⟩ | ⟨-, -, h⟩ |
    ⟨ho, hr, h⟩ | ⟨ho, h⟩
  · cases h.symm.trans hd
  · cases h.symm.trans hd
  · cases h.symm.trans hd
    exact ⟨rfl, hword ho.symm hr.symm⟩
  · cases h.symm.trans hd
    exact ⟨rfl, hword ho.symm hr.symm⟩
  · cases h.symm.trans hd
    exact ⟨rfl, hword ho.symm hr.symm⟩
  · cases h.symm.trans hd
    exact ⟨rfl, hword ho.symm hr.symm⟩
  · cases h.symm.trans hd
    exact ⟨rfl, congrArg some (setTimeWord_fields ho)⟩
  · cases h.symm.trans hd
  · cases h.symm.trans hd
    exact ⟨rfl, congrArg some (advanceWord_fields ho hr)⟩
  · exact encode_of_decodeRead ho (h.symm.trans hd)

/-- The decoder answers exactly the legal command whose word it is given. -/
theorem decode_eq_command_iff (w : Word) (i : Instr) :
    decode w = .command i ↔ i.wellFormed = true ∧ encode i = some w :=
  ⟨encode_of_decode, fun ⟨hi, he⟩ => decode_of_encode hi he⟩

/-! ## Match and mask (R84) -/

/-- A mask of the bits from `lo` up compares the field above `lo`. -/
theorem and_highMask_eq_iff {n lo len : Nat} (w : BitVec n) (f : BitVec len) (hl : lo + len = n) :
    w &&& BitVec.allOnes n <<< lo = f.setWidth n <<< lo ↔ w.extractLsb' lo len = f := by
  constructor
  · intro h
    ext i hi
    have hbit := congrArg (·.getLsbD (lo + i)) h
    simpa [show lo + i < n by omega, hi] using hbit
  · rintro rfl
    ext i hi
    by_cases hlo : i < lo
    · simp [hlo]
    · simp [hlo, hi, show lo + (i - lo) = i by omega, show i - lo < len by omega]

theorem setTimeMask_iff (w : Word) : w &&& 0xE0000000#32 = 0x20000000#32 ↔ w.extractLsb' 29 3 = 1#3 :=
  and_highMask_eq_iff w 1#3 rfl

theorem advanceMask_iff (w : Word) :
    w &&& 0xFFFF0000#32 = 0x40000000#32 ↔ w.extractLsb' 29 3 = 2#3 ∧ w.extractLsb' 16 13 = 0#13 := by
  refine (and_highMask_eq_iff w 0x4000#16 rfl).trans ?_
  simp only [← BitVec.toNat_inj, extractLsb'_toNat_div, BitVec.toNat_ofNat]
  omega

theorem bitkindAtMask_iff (w : Word) :
    w &&& 0xFFFFFFC0#32 = 0xCC000000#32 ↔
      w.extractLsb' 29 3 = 6#3 ∧ w.extractLsb' 26 3 = 3#3 ∧ w.extractLsb' 6 20 = 0#20 := by
  refine (and_highMask_eq_iff w 0x3300000#26 rfl).trans ?_
  simp only [← BitVec.toNat_inj, extractLsb'_toNat_div, BitVec.toNat_ofNat]
  omega

/-- The rows whose mask is the whole word. -/
theorem fullMask_iff {i : Instr} {v : Word} (hi : i.wellFormed = true) (he : encode i = some v) (w : Word) :
    w &&& 0xFFFFFFFF#32 = v ↔ decode w = .command i := by
  rw [decode_eq_command_iff, he, Option.some.injEq, and_iff_right hi, eq_comm (b := w)]
  rw [show 0xFFFFFFFF#32 = BitVec.allOnes 32 from rfl, BitVec.and_allOnes]

theorem setTimeRow_iff (w : Word) :
    w &&& 0xE0000000#32 = 0x20000000#32 ↔ ∃ mi hr dy mo yr ds, decode w = .command (.setTime mi hr dy mo yr ds) := by
  rw [setTimeMask_iff]
  refine ⟨fun ho => ⟨_, _, _, _, _, _, decode_of_op_setTime ho⟩, fun ⟨mi, hr, dy, mo, yr, ds, hd⟩ => ?_⟩
  obtain rfl : setTimeWord mi hr dy mo yr ds = w := Option.some.inj (encode_of_decode hd).2
  exact setTimeWord_op ..

theorem advanceRow_iff (w : Word) :
    w &&& 0xFFFF0000#32 = 0x40000000#32 ↔ ∃ ah am, decode w = .command (.advance ah am) := by
  rw [advanceMask_iff]
  refine ⟨fun ⟨ho, hr⟩ => ⟨_, _, decode_of_op_advance ho hr⟩, fun ⟨ah, am, hd⟩ => ?_⟩
  obtain rfl : advanceWord ah am = w := Option.some.inj (encode_of_decode hd).2
  exact ⟨advanceWord_op .., advanceWord_reserved ..⟩

/-- BITKIND_AT's row has the side condition on the index (R75). -/
theorem bitkindAtRow_iff (w : Word) :
    (w &&& 0xFFFFFFC0#32 = 0xCC000000#32 ∧ (w.extractLsb' 0 6).toNat ≤ 59) ↔
      ∃ idx, decode w = .command (.bitkindAt idx) := by
  rw [bitkindAtMask_iff]
  constructor
  · rintro ⟨⟨ho, hs, hr⟩, hi⟩
    refine ⟨w.extractLsb' 0 6, ?_⟩
    rw [decode_of_op_read ho, hs, hr, decodeRead_bitkindAt (Nat.lt_succ_of_le hi)]
  · rintro ⟨idx, hd⟩
    obtain ⟨hi, he⟩ := encode_of_decode hd
    obtain rfl : bitkindAtWord idx = w := Option.some.inj he
    refine ⟨⟨bitkindAtWord_op _, bitkindAtWord_sel _, bitkindAtWord_reserved _⟩, ?_⟩
    rw [bitkindAtWord_idx]
    exact Nat.le_of_lt_succ (of_decide_eq_true hi)

theorem decode_ne_tick (w : Word) : decode w ≠ .command .tick := fun hd => nomatch (encode_of_decode hd).2

theorem decode_ne_reset (w : Word) : decode w ≠ .command .reset := fun hd => nomatch (encode_of_decode hd).2

/-! ## The obligations -/

/-- Settles O1: the decoder reads each operand from the field the encoder put it in. -/
theorem decodeOfEncodeIsTheCommand : Obligations.DecodeOfEncodeIsTheCommand :=
  fun _ _ => decode_of_encode

/-- Settles O2: the fields the decoder reads, with the reserved bits it checks, fix the word. -/
theorem legalWordIsTheCommandsOwnWord : Obligations.LegalWordIsTheCommandsOwnWord :=
  fun _ _ => encode_of_decode

/-- Settles O3: the rows by their masks, and the illegal words as those no row's command is read from. -/
theorem matchAndMaskSelectTheCommands : Obligations.MatchAndMaskSelectTheCommands := by
  intro w
  have hnop := fullMask_iff (i := .nop) rfl rfl w
  have hstart := fullMask_iff (i := .start) rfl rfl w
  have hstop := fullMask_iff (i := .stop) rfl rfl w
  have hresume := fullMask_iff (i := .resume) rfl rfl w
  have hisActive := fullMask_iff (i := .isActive) rfl rfl w
  have hgetTime := fullMask_iff (i := .getTime) rfl rfl w
  have hgetDoy := fullMask_iff (i := .getDoy) rfl rfl w
  have hgetTimer := fullMask_iff (i := .getTimer) rfl rfl w
  refine ⟨hnop, setTimeRow_iff w, advanceRow_iff w, hstart, hstop, hresume, hisActive, hgetTime, hgetDoy,
    bitkindAtRow_iff w, hgetTimer, ?_⟩
  simp only [ne_eq, hnop, setTimeRow_iff, advanceRow_iff, hstart, hstop, hresume, hisActive, hgetTime, hgetDoy,
    bitkindAtRow_iff, hgetTimer]
  cases hd : decode w with
  | illegal c => simp
  | command i =>
    cases i with
    | tick => exact absurd hd (decode_ne_tick w)
    | reset => exact absurd hd (decode_ne_reset w)
    | _ => simp

/-- Settles O5: OP 001 has no reserved bits to check. -/
theorem everySetTimeWordIsLegal : Obligations.EverySetTimeWordIsLegal :=
  fun _ => decode_of_op_setTime

/-- Settles O6: the eight words evaluated. -/
theorem sampleWordsDecode : Obligations.SampleWordsDecode := by
  unfold Obligations.SampleWordsDecode
  decide

/-- Settles O7: a word that decoded to an event would be the event's word, which the encoder does not give. -/
theorem eventsHaveNoCommandWord : Obligations.EventsHaveNoCommandWord :=
  ⟨rfl, rfl, fun w => ⟨decode_ne_tick w, decode_ne_reset w⟩⟩

end Sys2Proof

namespace Sys2Proof.Machine

/-- The error response (R77) is the cause's code and `RSP_ERR`. -/
theorem State.commandError_eq (s : State) (c : Cause) :
    s.commandError c = { s with rspData := causeWord c, rspErr := true } := rfl

/-- Settles O12: the event of an illegal word is the error response to its cause. -/
theorem illegalWordOnlyAnswersItsCause : Obligations.IllegalWordOnlyAnswersItsCause := by
  intro s w c rest hw hd code
  have hcode : causeWord c = code := by cases c <;> rfl
  have herr (t : State) : eventNext (.cmd w) t = { t with rspData := code, rspErr := true } := by
    rw [eventNext_of_illegal hd, State.commandError_eq, hcode]
  refine ⟨fun hi => ?_, fun hi => ?_⟩
  · rw [step_event hw (s.takeEvent_command hi), herr]
    rfl
  · rw [step_both hw hi, herr]
    rfl

end Sys2Proof.Machine

namespace Sys2Proof.Machine

/-! ## Commands without operands (`30_encoding.md` R72, R75) -/

section
variable {i : Instr} {w : Word}

/-- A legal command with a word has this word alone. -/
theorem decode_eq_command_iff_eq (hi : i.wellFormed = true) (he : encode i = some w) (v : Word) :
    decode v = .command i ↔ v = w := by
  rw [decode_eq_command_iff, he, and_iff_right hi, Option.some.injEq, eq_comm]

theorem decode_formatN_reservedBits {v : Word}
    (ho : v.extractLsb' 29 3 = 0#3 ∨ v.extractLsb' 29 3 = 3#3 ∨ v.extractLsb' 29 3 = 4#3 ∨ v.extractLsb' 29 3 = 5#3)
    (hr : v.extractLsb' 0 29 ≠ 0#29) : decode v = .illegal .reservedBits := by
  rcases ho with ho | ho | ho | ho <;> simpa [ho, hr] using decode_op_cases v

theorem decode_formatR_reservedBits {v : Word} (ho : v.extractLsb' 29 3 = 6#3) (hs : (v.extractLsb' 26 3).toNat < 5)
    (hr : v.extractLsb' 6 20 ≠ 0#20 ∨ (v.extractLsb' 26 3 ≠ 3#3 ∧ v.extractLsb' 0 6 ≠ 0#6)) :
    decode v = .illegal .reservedBits := by
  rw [decode_of_op_read ho]
  obtain ⟨h5, -⟩ | ⟨-, -, h⟩ | h := decodeRead_cases (v.extractLsb' 26 3) (v.extractLsb' 6 20) (v.extractLsb' 0 6)
  · omega
  · exact h
  · grind

/-- Format N: a word of the same operation that is another word has a reserved bit set. -/
theorem commandWithoutOperands_formatN (hi : i.wellFormed = true) (he : encode i = some w)
    (ho : w.extractLsb' 29 3 = 0#3 ∨ w.extractLsb' 29 3 = 3#3 ∨ w.extractLsb' 29 3 = 4#3 ∨ w.extractLsb' 29 3 = 5#3)
    (hr : w.extractLsb' 0 29 = 0#29) : CommandWithoutOperands i w 29 3 := by
  refine ⟨decode_eq_command_iff_eq hi he, fun v hv hne => decode_formatN_reservedBits (hv ▸ ho) fun h => hne ?_⟩
  exact word_eq_of_operation hv (h.trans hr.symm)

/-- The leading six bits of a word of format R are its operation and its selector. -/
theorem op_sel_eq_of_leading_eq {v : Word} (h : v.extractLsb' 26 6 = w.extractLsb' 26 6) :
    v.extractLsb' 29 3 = w.extractLsb' 29 3 ∧ v.extractLsb' 26 3 = w.extractLsb' 26 3 := by
  simp only [← BitVec.toNat_inj, extractLsb'_toNat_div] at h ⊢
  omega

/-- Format R without index: a word of the same operation and selector that is another word has a reserved bit set. -/
theorem commandWithoutOperands_formatR (hi : i.wellFormed = true) (he : encode i = some w)
    (ho : w.extractLsb' 29 3 = 6#3) (hs : (w.extractLsb' 26 3).toNat < 5) (hs3 : w.extractLsb' 26 3 ≠ 3#3)
    (hr : w.extractLsb' 6 20 = 0#20) (hidx : w.extractLsb' 0 6 = 0#6) : CommandWithoutOperands i w 26 6 := by
  refine ⟨decode_eq_command_iff_eq hi he, fun v hv hne => ?_⟩
  obtain ⟨hvo, hvs⟩ := op_sel_eq_of_leading_eq hv
  refine decode_formatR_reservedBits (hvo.trans ho) (hvs ▸ hs) ?_
  by_contra! hzero
  obtain ⟨hvr, hvidx⟩ := hzero
  exact hne (word_eq_of_read hvo hvs (hvr.trans hr.symm) ((hvidx (hvs ▸ hs3)).trans hidx.symm))

theorem nop_withoutOperands : CommandWithoutOperands .nop 0x00000000#32 29 3 :=
  commandWithoutOperands_formatN rfl rfl (by decide) (by decide)

theorem start_withoutOperands : CommandWithoutOperands .start 0x60000000#32 29 3 :=
  commandWithoutOperands_formatN rfl rfl (by decide) (by decide)

theorem stop_withoutOperands : CommandWithoutOperands .stop 0x80000000#32 29 3 :=
  commandWithoutOperands_formatN rfl rfl (by decide) (by decide)

theorem resume_withoutOperands : CommandWithoutOperands .resume 0xA0000000#32 29 3 :=
  commandWithoutOperands_formatN rfl rfl (by decide) (by decide)

theorem isActive_withoutOperands : CommandWithoutOperands .isActive 0xC0000000#32 26 6 :=
  commandWithoutOperands_formatR rfl rfl (by decide) (by decide) (by decide) (by decide) (by decide)

end

theorem decode_nopWord : decode 0x00000000#32 = .command .nop := (nop_withoutOperands.1 _).mpr rfl

theorem decode_stopWord : decode 0x80000000#32 = .command .stop := (stop_withoutOperands.1 _).mpr rfl

theorem decode_resumeWord : decode 0xA0000000#32 = .command .resume := (resume_withoutOperands.1 _).mpr rfl

/-! ## The commands' next states (`40_carrier_control.md` R101 to R105) -/

section
variable (s : State)

theorem exec_nop : exec .nop s = .next { s with rspData := 0, rspErr := false } := rfl

theorem exec_start : exec .start s =
    .next { s with active := true, tcnt := 0, phase := .low, curk := s.frame[s.pos], rspData := 0, rspErr := false } :=
  rfl

theorem exec_stop : exec .stop s = .next { s with active := false, rspData := 0, rspErr := false } := rfl

theorem exec_resume : exec .resume s = .next { s with active := true, rspData := 0, rspErr := false } := rfl

theorem activeWord_eq (b : Bool) : activeWord b = if b then 1#32 else 0#32 := by
  cases b <;> rfl

theorem exec_isActive :
    exec .isActive s = .next { s with rspData := if s.active then 1#32 else 0#32, rspErr := false } := by
  rw [exec_eq_next, execNext_isActive, activeWord_eq]
  rfl

end

/-- The first bit after RESET is a marker (R38). -/
theorem resetFor_frame_zero (c : Config) : (State.resetFor c).frame[(0 : Fin 60)] = .marker :=
  (encodeFrame_markersExact _ _ 0).mpr (by decide)

/-! ## Runs through a command and through the ticks of a stopped block (R103, `00_scope.md` R3) -/

section
variable {s : State} (hw : s.cfg.wellFormed = true)
include hw

/-- A cycle with a command alone. -/
theorem step_command {w : Word} {i : Instr} {rest : List PortSample} (hd : decode w = .command i)
    (hi : s.inputs = { cmd := some w } :: rest) : step s = .next (execNext i (s.setInputs rest)) := by
  rw [step_event hw (s.takeEvent_command hi), eventNext_of_command hd]

/-- A cycle with a command and a tick takes two steps. -/
theorem run_two_of_both {w : Word} {i : Instr} {rest : List PortSample} (hd : decode w = .command i)
    (hi : s.inputs = { tick := true, cmd := some w } :: rest) :
    run 2 s = .next (execNext .tick (execNext i (s.setInputs rest))) := by
  rw [run_succ_of_step 1 (step_both hw hi), run_succ_of_step 0 (step_tick_after_command hw), run_zero,
    eventNext_of_command hd]

/-- A stopped block only takes a tick off its inputs. -/
theorem step_tick_of_stopped (ha : s.active = false) (l : List PortSample) :
    step (s.setInputs ({ tick := true } :: l)) = .next (s.setInputs l) := by
  rw [step_tick (s.setInputs ({ tick := true } :: l)) hw rfl, State.setInputs_setInputs,
    execNext_setInputs, execNext_tick_stopped s ha]

theorem run_ticks_of_stopped (ha : s.active = false) (n : Nat) (rest : List PortSample) :
    run n (s.setInputs (tickSamples n ++ rest)) = .next (s.setInputs rest) := by
  induction n with
  | zero => rfl
  | succ n ih => exact (run_succ_of_step n (step_tick_of_stopped hw ha _)).trans ih

/-- STOP and the first `n` ticks after it. -/
theorem run_stop_ticks (n : Nat) {rest : List PortSample}
    (hi : s.inputs = { cmd := some 0x80000000#32 } :: (tickSamples n ++ rest)) :
    run (n + 1) s = .next ((execNext .stop s).setInputs rest) := by
  rw [run_succ_of_step n (step_command hw decode_stopWord hi), execNext_setInputs]
  exact run_ticks_of_stopped (s := execNext .stop s) hw rfl n rest

end

theorem tickSamples_add (m n : Nat) : tickSamples (m + n) = tickSamples m ++ tickSamples n :=
  (List.replicate_append_replicate ..).symm

theorem State.setActive_of_active (s : State) {b : Bool} (h : s.active = b) : s.setActive b = s := by
  subst h
  rfl

/-- RESUME undoes STOP in an active block, whatever inputs were taken meanwhile. -/
theorem execNext_resume_stop {s : State} (ha : s.active = true) (l : List PortSample) :
    execNext .resume ((execNext .stop s).setInputs l) = { s with rspData := 0, rspErr := false, inputs := l } :=
  calc
    _ = ((s.setActive true).respond 0).setInputs l := rfl
    _ = (s.respond 0).setInputs l := by rw [s.setActive_of_active ha]
    _ = { s with rspData := 0, rspErr := false, inputs := l } := rfl

/-! ## The obligations -/

/-- Settles O15: the tick left by NOP's cycle meets the state NOP answers. -/
theorem nopWritesOnlyTheResponse : Obligations.NopWritesOnlyTheResponse := by
  refine ⟨nop_withoutOperands, exec_nop, fun s rest hw hi => ⟨_, exec_eq_next .tick _, ?_⟩⟩
  exact run_two_of_both hw decode_nopWord hi

/-- Settles O16: after RESET the frame's kind at position 0 is a marker. -/
theorem startRestartsTheBit : Obligations.StartRestartsTheBit :=
  ⟨start_withoutOperands, exec_start, fun c => ⟨_, exec_start _, rfl, resetFor_frame_zero c⟩⟩

/-- Settles O17: a stopped block ignores the tick, also the one left by STOP's own cycle. -/
theorem stopKeepsAllState : Obligations.StopKeepsAllState := by
  refine ⟨stop_withoutOperands, exec_stop, fun s t hexec => ?_, fun s rest hw hi => ?_⟩
  · obtain rfl := execNext_eq_of_exec hexec
    rw [exec_eq_next, execNext_tick_stopped _ rfl]
  · rw [run_two_of_both hw decode_stopWord hi, execNext_tick_stopped _ rfl]
    rfl

/-- Settles O18: the reset state is the beginning of a marker bit, so restarting it changes nothing. -/
theorem resumeKeepsThePhase : Obligations.ResumeKeepsThePhase := by
  refine ⟨resume_withoutOperands, exec_resume, fun c => ?_⟩
  rw [exec_start, show (State.resetFor c).frame[(State.resetFor c).pos] = .marker from resetFor_frame_zero c]
  rfl

/-- Settles O19: the response word is the flag zero-extended. -/
theorem isActiveReportsTheFlag : Obligations.IsActiveReportsTheFlag :=
  ⟨isActive_withoutOperands, exec_isActive⟩

/-- Settles O20: the ticks change only the inputs, and RESUME undoes STOP. -/
theorem stopTicksResumeLosesNothing : Obligations.StopTicksResumeLosesNothing := by
  intro s n rest hw ha hi
  refine ⟨fun k hk => ?_, ?_⟩
  · rw [← Nat.add_sub_cancel' hk, tickSamples_add, List.append_assoc] at hi
    exact ⟨_, run_stop_ticks hw k hi, rfl, rfl⟩
  · have hresume : step ((execNext .stop s).setInputs ({ cmd := some 0xA0000000#32 } :: rest)) =
        .next { s with rspData := 0, rspErr := false, inputs := rest } := by
      rw [step_command (s := (execNext .stop s).setInputs _) hw decode_resumeWord rfl, State.setInputs_setInputs,
        execNext_resume_stop ha]
    rw [run_add (n + 1) 1 s _ (run_stop_ticks hw n hi), run_succ_of_step 0 hresume, run_zero]

end Sys2Proof.Machine

namespace Sys2Proof.Machine

/-- Position 0 is one of MSET (R160). -/
theorem Frame.MarkersExact.get_zero {f : Frame} (h : f.MarkersExact) : f[(0 : Fin 60)] = .marker :=
  (h 0).mpr (by decide)

/-! ## A tick, branch by branch, as whole next states (`41_bit_scheduler.md` R121) -/

section
variable (s : State)

/-- The end of position 59 with `UNDEF = 0`: the next frame is that of the calendar one minute later. -/
theorem State.endBit_of_wrap_defined (h : s.pos.val = 59) (hu : s.undef = false) :
    s.endBit = { s with
      phase := .low, pos := 0, curk := .marker, tcnt := 0
      cal := s.cal.advanceOneMinute s.cfg.leapY00
      frame := encodeFrame (s.cal.advanceOneMinute s.cfg.leapY00) s.cfg.dut1Sign } := by
  have hk : (encodeFrame (s.cal.advanceOneMinute s.cfg.leapY00) s.cfg.dut1Sign)[(0 : Fin 60)] = .marker :=
    (encodeFrame_markersExact _ _).get_zero
  rw [s.endBit_of_wrap h, (s.setPos 0).advanceOneMinute_defined hu, ← hk]
  rfl

/-- The end of position 59 with `UNDEF = 1`: the next frame is the next draw (R172). -/
theorem State.endBit_of_wrap_undefined (h : s.pos.val = 59) (hu : s.undef = true) :
    s.endBit = { s with
      phase := .low, pos := 0, curk := .marker, tcnt := 0
      frame := drawnFrame (Config.drawFrame s.drawNo), drawNo := s.drawNo + 1 } := by
  have hk : (drawnFrame (Config.drawFrame s.drawNo))[(0 : Fin 60)] = .marker :=
    (drawnFrame_markersExact _).get_zero
  rw [s.endBit_of_wrap h, (s.setPos 0).advanceOneMinute_undefined hu, ← hk]
  rfl

/-- The end of a bit reads neither the count nor the phase of the bit that ends. -/
theorem State.endBit_congr_timer (p : Phase) (n : Nat) : ((s.setPhase p).setTcnt n).endBit = s.endBit := by
  obtain h | h : s.pos.val < 59 ∨ s.pos.val = 59 := by omega
  · rw [s.endBit_of_lt h, ((s.setPhase p).setTcnt n).endBit_of_lt h]
    rfl
  · obtain hu | hu := Bool.eq_false_or_eq_true s.undef
    · rw [s.endBit_of_wrap_undefined h hu, ((s.setPhase p).setTcnt n).endBit_of_wrap_undefined h hu]
      rfl
    · rw [s.endBit_of_wrap_defined h hu, ((s.setPhase p).setTcnt n).endBit_of_wrap_defined h hu]
      rfl

@[simp] theorem State.endBit_tcnt : s.endBit.tcnt = 0 := rfl
@[simp] theorem State.endBit_phase : s.endBit.phase = .low := rfl

@[simp] theorem State.endBit_pos : s.endBit.pos = nextPosition s.pos := by
  unfold State.endBit; dsimp only; split <;> simp

/-- The next bit begins with the kind the frame gives its position. -/
theorem State.endBit_curk : s.endBit.curk = s.endBit.kindAt s.endBit.pos := rfl

variable {s} (ha : s.active = true)
include ha

/-- From `E` on, unless the count is the low-duration, a tick ends the bit. -/
theorem execNext_tick_endBit (hl : s.tcnt.toNat + 1 ≠ s.cfg.lowDur s.curk) (he : s.cfg.e ≤ s.tcnt.toNat + 1) :
    execNext .tick s = s.endBit := by
  simp [execNext_tick, tickEffect, nextCount, ha, hl, he]

/-- Step 2: the tick that brings the count to the low-duration. -/
theorem execNext_tick_toHigh (hl : s.tcnt.toNat + 1 = s.cfg.lowDur s.curk) :
    execNext .tick s = { s with phase := .high, tcnt := s.tcnt + 1#16 } := by
  have he : tickEffect s.cfg s.active s.curk s.tcnt = .toHigh := by simp [tickEffect, nextCount, ha, hl]
  rw [execNext_tick, he, ← tcnt_succ]
  rfl

theorem execNext_tick_count (hl : s.tcnt.toNat + 1 ≠ s.cfg.lowDur s.curk) (he : s.tcnt.toNat + 1 < s.cfg.e) :
    execNext .tick s = { s with tcnt := s.tcnt + 1#16 } := by
  have he : tickEffect s.cfg s.active s.curk s.tcnt = .count := by
    simp [tickEffect, nextCount, ha, hl, Nat.not_le.mpr he]
  rw [execNext_tick, he, ← tcnt_succ]
  rfl

/-- A tick short of the end of the bit only counts, and sets the phase at the low-duration. -/
theorem execNext_tick_of_lt (he : s.tcnt.toNat + 1 < s.cfg.e) :
    execNext .tick s =
      (s.setPhase (if s.tcnt.toNat + 1 = s.cfg.lowDur s.curk then .high else s.phase)).setTcnt (nextCount s.tcnt) := by
  split
  next hl =>
    rw [execNext_tick_toHigh ha hl, ← tcnt_succ]
    rfl
  next hl =>
    rw [execNext_tick_count ha hl he, ← tcnt_succ]
    rfl

end

/-- R126: the count after the last tick of a bit still fits `TCNT`. -/
theorem State.Inv.tcnt_succ_toNat {s : State} (h : s.Inv) : (s.tcnt + 1#16).toNat = s.tcnt.toNat + 1 := by
  have hlt := h.timer_ok.tcnt_lt
  have he := (Config.wellFormed_bounds h.cfg_ok).1
  exact BitVec.toNat_add_of_lt (by simp only [BitVec.toNat_ofNat]; omega)

/-! ## The ticks of whole bits (R123) -/

/-- The phase of a bit of kind `k` after `n` of its ticks. -/
def phaseAt (c : Config) (k : BitKind) (n : Nat) : Phase := if n < c.lowDur k then .low else .high

theorem phaseAt_of_lt {c : Config} {k : BitKind} {n : Nat} (h : n < c.lowDur k) : phaseAt c k n = .low := if_pos h

theorem phaseAt_of_ge {c : Config} {k : BitKind} {n : Nat} (h : c.lowDur k ≤ n) : phaseAt c k n = .high :=
  if_neg (Nat.not_lt.mpr h)

/-- The phase changes at the low-duration and is kept by every other tick. -/
theorem phaseAt_succ (c : Config) (k : BitKind) (n : Nat) :
    phaseAt c k (n + 1) = if n + 1 = c.lowDur k then .high else phaseAt c k n := by
  obtain h | h | h := Nat.lt_trichotomy (n + 1) (c.lowDur k)
  · rw [if_neg h.ne, phaseAt_of_lt h, phaseAt_of_lt (Nat.lt_of_succ_lt h)]
  · rw [if_pos h, phaseAt_of_ge h.ge]
  · rw [if_neg h.ne', phaseAt_of_ge h.le, phaseAt_of_ge (Nat.le_of_lt_succ h)]

/-- `s`, at the beginning of a bit, `n` ticks later and short of the end of the bit. -/
def State.withinBit (s : State) (n : Nat) : State := (s.setPhase (phaseAt s.cfg s.curk n)).setTcnt n

/-- A running block at the beginning of a bit. -/
structure State.BitBegins (s : State) : Prop where
  cfg_ok : s.cfg.wellFormed = true
  active : s.active = true
  tcnt : s.tcnt = 0
  phase : s.phase = .low

section
variable {s : State} (h : s.BitBegins)
include h

theorem State.BitBegins.setInputs (l : List PortSample) : (s.setInputs l).BitBegins := { h with }

theorem State.BitBegins.endBit : s.endBit.BitBegins where
  cfg_ok := by simpa using h.cfg_ok
  active := by simpa using h.active
  tcnt := s.endBit_tcnt
  phase := s.endBit_phase

/-- A bit begins LOW, since no low-duration is 0. -/
theorem State.BitBegins.withinBit_zero : s.withinBit 0 = s := by
  have hp : phaseAt s.cfg s.curk 0 = s.phase :=
    (phaseAt_of_lt ((Config.wellFormed_bounds h.cfg_ok).2 s.curk).1).trans h.phase.symm
  have ht : BitVec.ofNat 16 0 = s.tcnt := h.tcnt.symm
  rw [State.withinBit, hp, State.setTcnt, ht]
  rfl

/-- A count short of `E` fits `TCNT`. -/
theorem State.BitBegins.withinBit_tcnt_toNat {n : Nat} (hn : n < s.cfg.e) : (s.withinBit n).tcnt.toNat = n := by
  have he := (Config.wellFormed_bounds h.cfg_ok).1
  exact Nat.mod_eq_of_lt (by omega)

theorem State.BitBegins.tick_withinBit {n : Nat} (hn : n + 1 < s.cfg.e) :
    execNext .tick (s.withinBit n) = s.withinBit (n + 1) := by
  have ht := h.withinBit_tcnt_toNat (Nat.lt_of_succ_lt hn)
  rw [execNext_tick_of_lt (s := s.withinBit n) h.active (by rwa [ht]), nextCount, ht, State.withinBit, State.withinBit,
    phaseAt_succ]
  rfl

theorem State.BitBegins.ticks {n : Nat} (hn : n < s.cfg.e) : (execNext .tick)^[n] s = s.withinBit n := by
  induction n with
  | zero => exact h.withinBit_zero.symm
  | succ n ih => rw [Function.iterate_succ_apply', ih (Nat.lt_of_succ_lt hn), h.tick_withinBit hn]

/-- After `E` ticks the bit has ended. -/
theorem State.BitBegins.ticks_bit : (execNext .tick)^[s.cfg.e] s = s.endBit := by
  have hk := (Config.wellFormed_bounds h.cfg_ok).2 s.curk
  obtain ⟨n, hn⟩ : ∃ n, s.cfg.e = n + 1 := ⟨s.cfg.e - 1, by omega⟩
  have hlast : (s.withinBit n).tcnt.toNat + 1 = s.cfg.e := by
    rw [h.withinBit_tcnt_toNat (by omega), hn]
  rw [hn, Function.iterate_succ_apply', h.ticks (by omega), execNext_tick_end (s.withinBit n) h.cfg_ok h.active hlast,
    State.withinBit, s.endBit_congr_timer]

end

theorem State.BitBegins.ticks_bits {s : State} (h : s.BitBegins) (b : Nat) :
    (execNext .tick)^[b * s.cfg.e] s = State.endBit^[b] s := by
  induction b generalizing s with
  | zero => simp
  | succ b ih =>
    rw [Nat.succ_mul, Function.iterate_add_apply, h.ticks_bit, ← s.endBit_cfg, ih h.endBit,
      Function.iterate_succ_apply]

/-- Cycles that present a tick each run TICK as often. -/
theorem run_ticks {s : State} (hw : s.cfg.wellFormed = true) {n : Nat} {rest : List PortSample}
    (hi : s.inputs = tickSamples n ++ rest) : run n s = .next ((execNext .tick)^[n] (s.setInputs rest)) := by
  induction n generalizing s with
  | zero =>
    have hrest : s.inputs = rest := hi
    rw [← hrest]
    rfl
  | succ n ih =>
    rw [run_succ_of_step n (step_tick s hw hi), ih (by simpa using hw) (by rw [execNext_inputs]; rfl),
      ← execNext_setInputs, State.setInputs_setInputs, Function.iterate_succ_apply]

/-- The first `n` ticks of a bit. -/
theorem run_ticks_within_bit {s : State} (h : s.BitBegins) {rest : List PortSample}
    (hi : s.inputs = tickSamples s.cfg.e ++ rest) {n : Nat} (hn : n < s.cfg.e) :
    run n s = .next ((s.setInputs (tickSamples (s.cfg.e - n) ++ rest)).withinBit n) := by
  rw [← Nat.add_sub_cancel' hn.le, tickSamples_add, List.append_assoc] at hi
  rw [run_ticks h.cfg_ok hi, (h.setInputs (tickSamples (s.cfg.e - n) ++ rest)).ticks hn]

/-! ## The ticks of whole frames (R124) -/

theorem Calendar.advanceN_succ_last (y00 : Bool) (c : Calendar) (n : Nat) :
    c.advanceN y00 (n + 1) = (c.advanceN y00 n).advanceOneMinute y00 := by
  induction n generalizing c with
  | zero => rfl
  | succ n ih => rw [Calendar.advanceN_succ, ih, Calendar.advanceN_succ]

theorem nextPosition_ofNat (b : Nat) : nextPosition (Fin.ofNat 60 b) = Fin.ofNat 60 (b + 1) :=
  Fin.ext (Nat.mod_add_mod b 60 1)

/-- A block with a defined calendar `c` at the beginning of position `p`, with everything else as in `s`. -/
def State.atBit (s : State) (c : Calendar) (p : Fin 60) : State :=
  { s with
    cal := c, frame := encodeFrame c s.cfg.dut1Sign
    tcnt := 0, phase := .low, pos := p, curk := (encodeFrame c s.cfg.dut1Sign)[p] }

section
variable {s : State}

/-- Every frame begins with a marker, so at position 0 the invariant fixes the resident kind. -/
theorem State.Inv.atBit_zero_eq (h : s.Inv) (hb : s.BitBegins) (hu : s.undef = false) (hp : s.pos = 0) :
    s.atBit s.cal 0 = s := by
  have hk : s.curk = .marker := h.resident_marker.mpr (by rw [hp]; decide)
  have hf : (encodeFrame s.cal s.cfg.dut1Sign)[(0 : Fin 60)] = .marker :=
    (encodeFrame_markersExact _ _).get_zero
  rw [State.atBit, hf, ← hk, ← h.frame_encodes hu, ← hp, ← hb.phase, ← hb.tcnt]

theorem State.endBit_atBit_of_lt (c : Calendar) {p : Fin 60} (hp : p.val < 59) :
    (s.atBit c p).endBit = s.atBit c (nextPosition p) := by
  rw [(s.atBit c p).endBit_of_lt hp]
  rfl

theorem State.endBit_atBit_of_wrap (hu : s.undef = false) (c : Calendar) {p : Fin 60} (hp : p.val = 59) :
    (s.atBit c p).endBit = s.atBit (c.advanceOneMinute s.cfg.leapY00) 0 := by
  have hk : (encodeFrame (c.advanceOneMinute s.cfg.leapY00) s.cfg.dut1Sign)[(0 : Fin 60)] = .marker :=
    (encodeFrame_markersExact _ _).get_zero
  rw [(s.atBit c p).endBit_of_wrap_defined hp hu, State.atBit, State.atBit, hk]

/-- From the beginning of position 0, `b` bits are `b / 60` minutes and `b % 60` positions. -/
theorem State.iterate_endBit_atBit (hu : s.undef = false) (c : Calendar) (b : Nat) :
    State.endBit^[b] (s.atBit c 0) = s.atBit (c.advanceN s.cfg.leapY00 (b / 60)) (Fin.ofNat 60 b) := by
  induction b with
  | zero => rfl
  | succ b ih =>
    rw [Function.iterate_succ_apply', ih, ← nextPosition_ofNat]
    obtain h | h : b % 60 < 59 ∨ b % 60 = 59 := by omega
    · rw [State.endBit_atBit_of_lt _ h, show (b + 1) / 60 = b / 60 by omega]
    · rw [State.endBit_atBit_of_wrap hu _ h, nextPosition_wrap h, show (b + 1) / 60 = b / 60 + 1 by omega,
        Calendar.advanceN_succ_last]

end

/-- Ticks for `b` whole bits from the beginning of position 0. -/
theorem run_ticks_of_bits {s : State} (h : s.Inv) (hb : s.BitBegins) (hu : s.undef = false) (hp : s.pos = 0)
    {b : Nat} {rest : List PortSample} (hi : s.inputs = tickSamples (b * s.cfg.e) ++ rest) :
    run (b * s.cfg.e) s =
      .next ((s.setInputs rest).atBit (s.cal.advanceN s.cfg.leapY00 (b / 60)) (Fin.ofNat 60 b)) := by
  have hbegin : (s.setInputs rest).atBit s.cal 0 = s.setInputs rest :=
    (h.setInputs rest).atBit_zero_eq (hb.setInputs rest) hu hp
  have hends := State.iterate_endBit_atBit (s := s.setInputs rest) hu s.cal b
  rw [hbegin] at hends
  exact (run_ticks hb.cfg_ok hi).trans (congrArg _ (((hb.setInputs rest).ticks_bits b).trans hends))

/-! ## GET_TIMER (R125) -/

theorem getTimer_withoutOperands : CommandWithoutOperands .getTimer 0xD0000000#32 26 6 :=
  commandWithoutOperands_formatR rfl rfl (by decide) (by decide) (by decide) (by decide) (by decide)

theorem exec_getTimer (s : State) : exec .getTimer s =
    .next { s with rspData := timerWord s.curk s.active s.phase s.pos s.tcnt, rspErr := false } := rfl

/-! ## The obligations -/

/-- Settles O21: each branch is its whole next state, and the tick of a command's cycle meets the state the command
leaves. -/
theorem tickBranches : Obligations.TickBranches := by
  refine ⟨fun s => ⟨fun ha => ?_, fun ha hl => ?_,
    fun ha hl he => ⟨fun hp => ?_, fun hp hu => ?_, fun hp hu => ?_⟩, fun ha hl he => ?_⟩,
    fun c k hw => ((Config.wellFormed_bounds hw).2 k).2,
    fun s w rest hw => (sameCycleInputsAreSerialised s rest hw).2 w⟩ <;>
    simp only [exec_eq_next, Host.Outcome.next.injEq]
  · exact execNext_tick_stopped s ha
  · exact execNext_tick_toHigh ha hl
  · exact ⟨_, nextPosition_val_of_lt hp, (execNext_tick_endBit ha hl he).trans (s.endBit_of_lt hp)⟩
  · rw [execNext_tick_endBit ha hl he, s.endBit_of_wrap_defined hp hu]
  · exact ⟨_, _, drawnFrame_markersExact _,
      (execNext_tick_endBit ha hl he).trans (s.endBit_of_wrap_undefined hp hu)⟩
  · exact execNext_tick_count ha hl he

/-- Settles O22: the tick either is short of the end of the bit or brings the count to `E`, and the invariant it keeps
has `TCNT < E`. -/
theorem tickCountsOrEndsTheBit : Obligations.TickCountsOrEndsTheBit := by
  intro s t h ha hexec
  obtain rfl := execNext_eq_of_exec hexec
  have hne : (execNext .tick s).tcnt.toNat ≠ s.cfg.e := by
    simpa using h.tick.timer_ok.tcnt_lt.ne
  refine ⟨?_, hne⟩
  obtain he | he : s.tcnt.toNat + 1 < s.cfg.e ∨ s.tcnt.toNat + 1 = s.cfg.e :=
    Nat.lt_or_eq_of_le h.timer_ok.tcnt_lt
  · rw [execNext_tick_of_lt ha he]
    exact .inl ⟨h.tcnt_succ_toNat, rfl⟩
  · rw [execNext_tick_end s h.cfg_ok ha he, State.endBit_pos]
    exact .inr ⟨s.endBit_tcnt, rfl, he, s.endBit_phase⟩

/-- Settles O23: a stopped block ignores the tick, and the count of a running one reads the resident kind. -/
theorem tickComparesWithTheResidentKind : Obligations.TickComparesWithTheResidentKind := by
  intro s t f he hexec
  obtain rfl := execNext_eq_of_exec hexec
  rw [exec_eq_next, Host.Outcome.next.injEq]
  obtain ha | ha := Bool.eq_false_or_eq_true s.active
  · rw [execNext_tick_of_lt ha he, execNext_tick_of_lt (s := { s with frame := f }) ha he]
    rfl
  · rw [execNext_tick_stopped s ha, execNext_tick_stopped { s with frame := f } ha]

/-- Settles O24: the invariant bounds the count by `E`, and an accepted configuration bounds `E`. -/
theorem tickCounterNeverOverflows : Obligations.TickCounterNeverOverflows := by
  refine ⟨fun s h => ⟨h.timer_ok.tcnt_lt, (Config.wellFormed_bounds h.cfg_ok).1, h.timer_ok.tcnt_lt,
    h.tcnt_succ_toNat⟩, fun s he => step_illFormed (Bool.eq_false_of_not_eq_true fun hw => ?_)⟩
  exact Nat.not_lt.mpr (Config.wellFormed_bounds hw).1 he

/-- Settles O25: short of the end the count is the number of ticks, and the last tick ends the bit. -/
theorem bitWaveform : Obligations.BitWaveform := by
  intro s rest hw ha ht hp hi
  have hb : s.BitBegins := ⟨hw, ha, ht, hp⟩
  obtain ⟨hpos, hlt⟩ := (Config.wellFormed_bounds hw).2 s.curk
  have hcounts {n : Nat} {p : Phase} (hn : n < s.cfg.e) (hphase : phaseAt s.cfg s.curk n = p) :
      ∃ t, run n s = .next t ∧ t.phase = p ∧ t.tcnt.toNat = n ∧ t.pos = s.pos :=
    ⟨_, run_ticks_within_bit hb hi hn, hphase, hb.withinBit_tcnt_toNat hn, rfl⟩
  refine ⟨fun n _ hn => ?_, ?_, fun n hn hn' => ?_, ?_⟩
  · exact hcounts (by omega) (phaseAt_of_lt (by omega))
  · exact hcounts hlt (phaseAt_of_ge le_rfl)
  · exact hcounts (by omega) (phaseAt_of_ge (by omega))
  · have hrun : run s.cfg.e s = .next (s.setInputs rest).endBit :=
      (run_ticks hw hi).trans (congrArg _ (hb.setInputs rest).ticks_bit)
    exact ⟨_, hrun, State.endBit_phase _, State.endBit_tcnt _, congrArg Fin.val (State.endBit_pos _),
      State.endBit_curk _, State.endBit_inputs _⟩

/-- Settles O26: `m` frames and `k` bits are `m * 60 + k` bits, each ended in turn. -/
theorem framesFollowTheMinutes : Obligations.FramesFollowTheMinutes := by
  intro s m k rest h hu ha ht hp hpos hk hi
  have hn : m * (60 * s.cfg.e) + k * s.cfg.e = (m * 60 + k) * s.cfg.e := by ring
  rw [hn] at hi ⊢
  have hrun := run_ticks_of_bits h ⟨h.cfg_ok, ha, ht, hp⟩ hu hpos hi
  rw [show (m * 60 + k) / 60 = m by omega] at hrun
  exact ⟨_, hrun, Nat.mul_add_mod_of_lt hk, rfl, rfl, ha, rfl, rfl, rfl, rfl⟩

/-- Settles O27: the response word, field by field. -/
theorem getTimerReportsTheTimer : Obligations.GetTimerReportsTheTimer := by
  refine ⟨getTimer_withoutOperands, fun s =>
    ⟨_, exec_getTimer s, timerWord_tcnt .., ?_, ?_, ?_, ?_, timerWord_high ..⟩⟩
  · rw [timerWord_pos]
    exact Nat.mod_eq_of_lt (by omega)
  · rw [timerWord_phase]
    cases s.phase <;> rfl
  · rw [timerWord_active]
    cases s.active <;> rfl
  · rw [timerWord_curk]
    cases s.curk <;> rfl

end Sys2Proof.Machine

namespace Sys2Proof

/-! ## Words by their fields (`30_encoding.md` R73 to R77) -/

theorem decode_advance_reservedBits {w : Word} (ho : w.extractLsb' 29 3 = 2#3) (hr : w.extractLsb' 16 13 ≠ 0#13) :
    decode w = .illegal .reservedBits := by
  simpa [ho, hr] using decode_op_cases w

/-- GET_TIME answers at the positions of the SET_TIME operands, so only the operation is missing (R73, R142). -/
theorem timeWord_or_op_setTime (mi : BitVec 6) (hr dy : BitVec 5) (mo : BitVec 4) (yr : BitVec 7) (ds : BitVec 2) :
    Machine.timeWord mi hr dy mo yr ds ||| 0x20000000#32 = setTimeWord mi hr dy mo yr ds := by
  simp only [Machine.timeWord, setTimeWord, BitVec.or_comm _ 0x20000000#32, BitVec.or_assoc]

theorem decodeRead_indexRange {idx : BitVec 6} (hi : 60 ≤ idx.toNat) :
    decodeRead 3#3 0#20 idx = .illegal .indexRange := by
  simpa [hi, Nat.not_lt.mpr hi] using decodeRead_cases 3#3 0#20 idx

/-- The leading bits of BITKIND_AT leave the reserved bits and the index to check. -/
theorem op_sel_of_bitkindAt_leading {v : Word} (h : v.extractLsb' 26 6 = 0b110011#6) :
    v.extractLsb' 29 3 = 6#3 ∧ v.extractLsb' 26 3 = 3#3 :=
  Machine.op_sel_eq_of_leading_eq (w := 0xCC000000#32) h

end Sys2Proof

namespace Sys2Proof.Machine

/-! ## SET_TIME (`42_encoder_commands.md` R140) -/

/-- Before the last minute of an hour an advance carries into no other register. -/
theorem Calendar.advanceOneMinute_of_min_lt (y00 : Bool) (c : Calendar) (h : c.min.toNat < 59) :
    c.advanceOneMinute y00 = { c with min := BitVec.ofNat 6 (c.min.toNat + 1) }.deriveDoy := by
  rw [Calendar.advanceOneMinute, Calendar.nextMinute_next y00 c (by omega)]

/-! ## ADVANCE and the reads while `UNDEF = 1` (R141 to R143, R172) -/

section
variable (s : State)

/-- ADVANCE of an undefined calendar draws the next frame. -/
theorem execNext_advance_undefined (ah am : BitVec 8) (h : s.undef = true) :
    execNext (.advance ah am) s =
      { s with
        frame := drawnFrame (Config.drawFrame s.drawNo), drawNo := s.drawNo + 1, rspData := 0, rspErr := false } := by
  rw [execNext_advance, s.advanceCalendar_undefined _ h, s.rederive_undefined h]
  rfl

theorem execNext_getTime_undefined (h : s.undef = true) :
    execNext .getTime s =
      { s with
        rspData := timeWord (Config.drawMin s.drawNo) (Config.drawHour s.drawNo) (Config.drawDay s.drawNo)
          (Config.drawMon s.drawNo) (Config.drawYear s.drawNo) s.cal.dst
        rspErr := false, drawNo := s.drawNo + 1 } := by
  rw [execNext_getTime, s.afterRead_undefined h, s.readTime_undefined h]
  rfl

theorem execNext_getDoy_undefined (h : s.undef = true) :
    execNext .getDoy s =
      { s with
        rspData := doyWord (Config.drawDoy s.drawNo) (Config.drawLeap s.drawNo) s.cal.lsw
        rspErr := false, drawNo := s.drawNo + 1 } := by
  rw [execNext_getDoy, s.afterRead_undefined h, s.readTime_undefined h]
  rfl

end

/-! ## GET_TIME and GET_DOY: the words and their flags (R142, R143) -/

theorem getTime_withoutOperands : CommandWithoutOperands .getTime 0xC4000000#32 26 6 :=
  commandWithoutOperands_formatR rfl rfl (by decide) (by decide) (by decide) (by decide) (by decide)

theorem getDoy_withoutOperands : CommandWithoutOperands .getDoy 0xC8000000#32 26 6 :=
  commandWithoutOperands_formatR rfl rfl (by decide) (by decide) (by decide) (by decide) (by decide)

/-- A flag in a response word (R143). -/
theorem ofBool_eq_ite (b : Bool) : BitVec.ofBool b = if b then 1#1 else 0#1 := by
  cases b <;> rfl

/-! ## BITKIND_AT (R144) -/

theorem framePosition_of_lt {idx : BitVec 6} (h : idx.toNat < 60) : framePosition idx = some ⟨idx.toNat, h⟩ :=
  dif_pos h

theorem framePosition_of_ge {idx : BitVec 6} (h : 60 ≤ idx.toNat) : framePosition idx = none :=
  dif_neg (Nat.not_lt.mpr h)

theorem execNext_bitkindAt_of_lt (s : State) {idx : BitVec 6} (h : idx.toNat < 60) :
    execNext (.bitkindAt idx) s = s.respond (kindWord (s.kindAt ⟨idx.toNat, h⟩)) := by
  rw [execNext_bitkindAt, framePosition_of_lt h]

theorem execNext_bitkindAt_of_ge (s : State) {idx : BitVec 6} (h : 60 ≤ idx.toNat) :
    execNext (.bitkindAt idx) s = s.commandError .indexRange := by
  rw [execNext_bitkindAt, framePosition_of_ge h]

theorem kindWord_eq_two_iff (k : BitKind) : kindWord k = 2#32 ↔ k = .marker := by
  cases k <;> decide

theorem kindWord_toNat_le (k : BitKind) : (kindWord k).toNat ≤ 2 := by
  cases k <;> decide

/-! ## The obligations -/

/-- Settles O28: `LEAP` and `DOY` are derived from the stored operands before the advance. -/
theorem setTimeWithLegalOperands : Obligations.SetTimeWithLegalOperands := by
  intro s mi hr dy mo yr ds hlegal leap stored c
  have hu : undefAfterSet s.cfg mi hr dy mo yr = false := by rw [undefAfterSet, hlegal, Bool.not_true]
  rw [exec_eq_next, execNext_setTime_legal s ds hu, setTimeCalendar_legal mi hr dy mo yr ds s hu]
  rfl

/-- Settles O29: the frame is the next draw, which marks the positions of MSET alone. -/
theorem setTimeWithIllegalOperands : Obligations.SetTimeWithIllegalOperands := by
  intro s mi hr dy mo yr ds hill
  have hu : undefAfterSet s.cfg mi hr dy mo yr = true := by rw [undefAfterSet, hill, Bool.not_false]
  refine ⟨_, drawnFrame_markersExact (Config.drawFrame s.drawNo), ?_⟩
  rw [exec_eq_next, execNext_setTime_illegal s ds hu]
  rfl

/-- Settles O31: before the last minute of an hour the advance moves `MIN` alone of the registers GET_TIME reads. -/
theorem getTimeAfterSetTimeIsOneMinuteLater : Obligations.GetTimeAfterSetTimeIsOneMinuteLater := by
  intro s mi hr dy mo yr ds hlegal hmi
  have hset := setTimeWithLegalOperands s mi hr dy mo yr ds hlegal
  dsimp only at hset
  rw [Calendar.advanceOneMinute_of_min_lt _ _ hmi] at hset
  refine ⟨_, _, hset, exec_eq_next .getTime _, ?_⟩
  rw [execNext_getTime_defined _ rfl, State.respond_rspData, timeWord_min, timeWord_hour, timeWord_day, timeWord_mon,
    timeWord_year, timeWord_dst]
  have hmin : (BitVec.ofNat 6 (mi.toNat + 1)).toNat = mi.toNat + 1 := Nat.mod_eq_of_lt (by omega)
  exact ⟨hmin, rfl, rfl, rfl, rfl, rfl⟩

/-- Settles O32: the reserved bits of format A, then the advance by the value of `UNDEF`. -/
theorem advanceMovesOnlyTheCalendar : Obligations.AdvanceMovesOnlyTheCalendar := by
  refine ⟨fun w ho => ⟨decode_of_op_advance ho, decode_advance_reservedBits ho⟩,
    fun s ah am => ⟨fun hu => ?_, fun hu => ⟨_, drawnFrame_markersExact (Config.drawFrame s.drawNo), ?_⟩⟩⟩
  · rw [exec_eq_next, execNext_advance_defined s ah am hu]
    rfl
  · rw [exec_eq_next, execNext_advance_undefined s ah am hu]

/-- Settles O33: the frame is already that of the calendar, which an advance by 0 minutes leaves. -/
theorem advanceByZeroChangesNothing : Obligations.AdvanceByZeroChangesNothing := by
  intro s h hu
  have hcal : s.cal.advanceN s.cfg.leapY00 (advanceMinutes 0 0) = s.cal := Calendar.advanceN_zero _ _
  rw [exec_eq_next, execNext_advance_defined s 0 0 hu, hcal, ← h.frame_encodes hu]

/-- Settles O34: the response word field by field, from the registers or from the draws. -/
theorem getTimeReportsTheCalendar : Obligations.GetTimeReportsTheCalendar := by
  refine ⟨getTime_withoutOperands, fun s hu => ⟨_, ?_, timeWord_high .., timeWord_min .., timeWord_hour ..,
      timeWord_day .., timeWord_mon .., timeWord_year .., timeWord_dst ..⟩,
    fun s hu => ⟨_, ?_, timeWord_high .., timeWord_min .., timeWord_hour .., timeWord_day .., timeWord_mon ..,
      timeWord_year .., timeWord_dst ..⟩⟩
  · rw [exec_eq_next, execNext_getTime_defined s hu]
    rfl
  · rw [exec_eq_next, execNext_getTime_undefined s hu]

/-- Settles O35: the response word field by field; the invariant has `LSW = 0`. -/
theorem getDoyReportsTheDerivedFields : Obligations.GetDoyReportsTheDerivedFields := by
  simp only [Obligations.GetDoyReportsTheDerivedFields, ← ofBool_eq_ite]
  refine ⟨getDoy_withoutOperands,
    fun s hu => ⟨_, ?_, doyWord_doy .., doyWord_leap .., doyWord_lsw .., doyWord_high ..⟩,
    fun s hu => ⟨_, ?_, doyWord_doy .., doyWord_leap .., doyWord_lsw .., doyWord_high ..⟩,
    fun s t h hexec => ?_⟩
  · rw [exec_eq_next, execNext_getDoy_defined s hu]
    rfl
  · rw [exec_eq_next, execNext_getDoy_undefined s hu]
  · obtain rfl := execNext_eq_of_exec hexec
    rw [execNext_getDoy, State.respond_rspData, doyWord_lsw, h.lsw_zero]
    rfl

/-- Settles O36: the checks of R77 in their order, then the frame's kind, which is a marker at exactly the positions
of MSET. -/
theorem bitkindAtReadsTheFrame : Obligations.BitkindAtReadsTheFrame := by
  refine ⟨fun v hv => ?_, fun s idx i hi => ?_, fun s idx hi => ?_, fun s t idx h hi hexec => ?_⟩
  · obtain ⟨ho, hs⟩ := op_sel_of_bitkindAt_leading hv
    refine ⟨fun hr => decode_formatR_reservedBits ho (by rw [hs]; decide) (.inl hr), fun hr hi => ?_,
      fun hr hi => ?_⟩
    · rw [decode_of_op_read ho, hs, hr, decodeRead_indexRange hi]
    · rw [decode_of_op_read ho, hs, hr, decodeRead_bitkindAt hi]
  · have hlt : idx.toNat < 60 := hi ▸ i.isLt
    obtain rfl : ⟨idx.toNat, hlt⟩ = i := Fin.ext hi
    rw [exec_eq_next, execNext_bitkindAt_of_lt s hlt, State.kindAt]
    cases s.frame[(⟨idx.toNat, hlt⟩ : Fin 60)] <;> rfl
  · rw [exec_eq_next, execNext_bitkindAt_of_ge s hi]
    rfl
  · obtain rfl := execNext_eq_of_exec hexec
    rw [execNext_bitkindAt_of_lt s hi, State.respond_rspData, kindWord_eq_two_iff]
    exact ⟨h.markers_exact ⟨idx.toNat, hi⟩, kindWord_toNat_le _⟩

/-- Settles O37: the read-back word with OP 001 is the word the encoder gives the registers' SET_TIME. -/
theorem readBackTimeCanBeReissued : Obligations.ReadBackTimeCanBeReissued := by
  intro s t hu hexec
  obtain rfl := execNext_eq_of_exec hexec
  rw [execNext_getTime_defined s hu, State.respond_rspData, timeWord_or_op_setTime]
  exact decode_of_encode rfl rfl

end Sys2Proof.Machine

namespace Sys2Proof.Machine

/-! ## Which kind a derived frame gives a position (`43_field_derivation.md` R170, R171 (d)) -/

/-- Every position a field names. -/
def fieldPositions : List Nat :=
  [1, 2, 3, 5, 6, 7, 8, 12, 13, 15, 16, 17, 18, 22, 23, 25, 26, 27, 28, 30, 31, 32, 33, 45, 46, 47, 48, 50, 51, 52, 53,
    36, 37, 38, 40, 41, 42, 43, 55, 56, 57, 58]

/-- The fields name the same positions whatever the calendar and the sign. -/
theorem fieldBits_positions (c : Calendar) (sign : Dut1Sign) : (fieldBits c sign).map Prod.fst = fieldPositions := by
  simp only [fieldBits, List.map_append, greedy_positions]
  cases sign <;> rfl

/-- In a list that names no position twice a position's entry is the one found. -/
theorem lookup_eq_some_of_mem {l : List (Nat × BitKind)} {i : Nat} {k : BitKind} (hl : (l.map Prod.fst).Nodup)
    (h : (i, k) ∈ l) : l.lookup i = some k := by
  obtain ⟨l₁, l₂, rfl⟩ := List.append_of_mem h
  refine List.lookup_eq_some_iff.mpr ⟨l₁, l₂, rfl, fun p hp => bne_iff_ne.mpr ?_⟩
  rintro rfl
  rw [List.map_append, List.map_cons, List.nodup_middle, List.nodup_cons] at hl
  exact hl.1 (List.mem_append_left _ (List.mem_map.mpr ⟨p, hp, rfl⟩))

section
variable {c : Calendar} {sign : Dut1Sign}

/-- No field names a marker position, so the frame carries what a field assigns. -/
theorem encodeAt_of_mem {i : Nat} {k : BitKind} (h : (i, k) ∈ fieldBits c sign) : encodeAt c sign i = k := by
  have hnodup : ((fieldBits c sign).map Prod.fst).Nodup := by
    rw [fieldBits_positions]
    decide
  have hfree : ∀ j ∈ fieldPositions, j ∉ markerSet := by decide
  have hi : i ∈ fieldPositions := fieldBits_positions c sign ▸ List.mem_map_of_mem h
  rw [encodeAt, if_neg (hfree i hi), lookup_eq_some_of_mem hnodup h, Option.getD_some]

/-- A data position that no field names carries ZERO (R169). -/
theorem encodeAt_of_notMem {i : Nat} (hm : i ∉ markerSet) (hf : i ∉ fieldPositions) : encodeAt c sign i = .zero := by
  have hnone : (fieldBits c sign).lookup i = none := by
    refine List.lookup_eq_none_iff.mpr fun p hp => bne_iff_ne.mpr ?_
    rintro rfl
    exact hf (fieldBits_positions c sign ▸ List.mem_map_of_mem hp)
  rw [encodeAt, if_neg hm, hnone, Option.getD_none]

theorem encodeAt_of_mem_dut1Bits {i : Nat} {k : BitKind} (h : (i, k) ∈ dut1Bits sign) : encodeAt c sign i = k :=
  encodeAt_of_mem (List.mem_append_left _ (List.mem_append_right _ h))

theorem encodeAt_of_mem_miscBits {i : Nat} {k : BitKind} (h : (i, k) ∈ miscBits c) : encodeAt c sign i = k :=
  encodeAt_of_mem (List.mem_append_right _ h)

end

/-! ## The weights of the ONE positions of a field (R162, R171 (c)) -/

/-- The weights of a table's positions that carry ONE, summed. -/
def onesWeight (f : Nat → BitKind) (t : List (Nat × Nat)) : Nat :=
  (t.map fun p => p.2 * if f p.1 = .one then 1 else 0).sum

/-- All the weights of a table, summed. -/
def totalWeight (t : List (Nat × Nat)) : Nat := (t.map Prod.snd).sum

/-- No weight exceeds the sum of those after it by more than 1, so a remainder below a weight is within reach of the
weights after it. -/
def gapless : List (Nat × Nat) → Bool
  | [] => true
  | (_, wt) :: t => decide (wt ≤ totalWeight t + 1) && gapless t

@[simp] theorem onesWeight_cons (f : Nat → BitKind) (p wt : Nat) (t : List (Nat × Nat)) :
    onesWeight f ((p, wt) :: t) = (wt * if f p = .one then 1 else 0) + onesWeight f t := rfl

@[simp] theorem totalWeight_cons (p wt : Nat) (t : List (Nat × Nat)) :
    totalWeight ((p, wt) :: t) = wt + totalWeight t := rfl

/-- On a gapless table `Greedy` leaves no remainder of a value up to the sum of all weights. -/
theorem onesWeight_of_greedy {f : Nat → BitKind} {t : List (Nat × Nat)} {v : Nat} (ht : gapless t = true)
    (hv : v ≤ totalWeight t) (hf : ∀ x ∈ greedy v t, f x.1 = x.2) : onesWeight f t = v := by
  induction t generalizing v with
  | nil => exact (Nat.le_zero.mp hv).symm
  | cons p t ih =>
    obtain ⟨p, wt⟩ := p
    rw [gapless, Bool.and_eq_true, decide_eq_true_eq] at ht
    obtain ⟨hwt, ht⟩ := ht
    rw [totalWeight_cons] at hv
    rw [greedy] at hf
    split at hf
    next hle =>
      obtain ⟨hp, hrest⟩ := List.forall_mem_cons.mp hf
      rw [onesWeight_cons, hp, ih ht (by omega) hrest]
      simp only [if_true]
      omega
    next hlt =>
      obtain ⟨hp, hrest⟩ := List.forall_mem_cons.mp hf
      rw [onesWeight_cons, hp, ih ht (by omega) hrest]
      simp

section
variable (c : Calendar) (sign : Dut1Sign)

theorem onesWeight_minute (h : c.min.toNat ≤ 59) : onesWeight (encodeAt c sign) minuteTable = c.min.toNat :=
  onesWeight_of_greedy rfl (h.trans (by decide)) fun _ hx => encodeAt_of_mem (by simp [fieldBits, hx])

theorem onesWeight_hour (h : c.hour.toNat ≤ 23) : onesWeight (encodeAt c sign) hourTable = c.hour.toNat :=
  onesWeight_of_greedy rfl (h.trans (by decide)) fun _ hx => encodeAt_of_mem (by simp [fieldBits, hx])

theorem onesWeight_doy (h : c.doy.toNat ≤ 366) : onesWeight (encodeAt c sign) doyTable = c.doy.toNat :=
  onesWeight_of_greedy rfl (h.trans (by decide)) fun _ hx => encodeAt_of_mem (by simp [fieldBits, hx])

theorem onesWeight_year (h : c.year.toNat ≤ 99) : onesWeight (encodeAt c sign) yearTable = c.year.toNat :=
  onesWeight_of_greedy rfl (h.trans (by decide)) fun _ hx => encodeAt_of_mem (by simp [fieldBits, hx])

theorem encodeFrame_bit (i : Fin 60) :
    (encodeFrame c sign).bit i = if encodeAt c sign i.val = .one then 1 else 0 := by
  rw [Frame.bit, encodeFrame_get]

end

/-! ## What a frame says of its calendar (R161, R168) -/

/-- A field's bit tells its flag. -/
theorem dataKind_injective : ∀ {a b : Bool}, dataKind a = dataKind b → a = b := by decide

/-- Positions 57 and 58 give the two digits of the DST code. -/
theorem dst_eq_of_getLsbD {a b : BitVec 2} (h1 : a.getLsbD 1 = b.getLsbD 1) (h0 : a.getLsbD 0 = b.getLsbD 0) :
    a = b := by
  apply BitVec.eq_of_getLsbD_eq
  intro i hi
  interval_cases i
  · exact h0
  · exact h1

/-- The day of the year of a valid calendar is in 1..366 (R182). -/
theorem Calendar.Valid.doy_bounds {y00 : Bool} {c : Calendar} (h : c.Valid y00) :
    1 ≤ c.doy.toNat ∧ c.doy.toNat ≤ 366 := by
  have hpos := dayOfYear_pos (m := c.mon.toNat) c.leap h.day_pos
  have hle := dayOfYear_le h.mon_pos h.mon_le h.day_le
  have hleap := c.leap.toNat_le
  rw [h.doy_eq]
  omega

/-- Of two valid calendars of one year the day of the year tells the date. -/
theorem Calendar.Valid.date_eq {y00 : Bool} {c d : Calendar} (hc : c.Valid y00) (hd : d.Valid y00)
    (hleap : c.leap = d.leap) (hdoy : c.doy = d.doy) : c.mon = d.mon ∧ c.day = d.day := by
  have h : dayOfYear c.day.toNat c.mon.toNat c.leap = dayOfYear d.day.toNat d.mon.toNat c.leap := by
    rw [← hc.doy_eq, hdoy, hd.doy_eq, hleap]
  obtain ⟨hmon, hday⟩ := dayOfYear_injective hc.mon_pos hc.mon_le hd.mon_pos hd.mon_le hc.day_pos hc.day_le hd.day_pos
    (hleap ▸ hd.day_le) h
  exact ⟨BitVec.eq_of_toNat_eq hmon, BitVec.eq_of_toNat_eq hday⟩

section
variable {c d : Calendar} {sign : Dut1Sign} (h : encodeFrame c sign = encodeFrame d sign)
include h

theorem encodeAt_eq_of_encodeFrame_eq {i : Nat} (hi : i < 60) : encodeAt c sign i = encodeAt d sign i := by
  have hget := congrArg (fun f : Frame => f[(⟨i, hi⟩ : Fin 60)]) h
  simpa only [encodeFrame_get] using hget

/-- Equal frames show equal DST codes. -/
theorem dst_eq_of_encodeFrame_eq : c.dst = d.dst := by
  have hbit {i j : Nat} (hi : i < 60) (hc : (i, dataKind (c.dst.getLsbD j)) ∈ miscBits c)
      (hd : (i, dataKind (d.dst.getLsbD j)) ∈ miscBits d) : c.dst.getLsbD j = d.dst.getLsbD j :=
    dataKind_injective <| by
      rw [← encodeAt_of_mem_miscBits (sign := sign) hc, ← encodeAt_of_mem_miscBits (sign := sign) hd,
        encodeAt_eq_of_encodeFrame_eq h hi]
  exact dst_eq_of_getLsbD (hbit (i := 57) (by decide) (by simp [miscBits]) (by simp [miscBits]))
    (hbit (i := 58) (by decide) (by simp [miscBits]) (by simp [miscBits]))

/-- Equal frames show equal values of a field. -/
theorem fieldValue_eq_of_encodeFrame_eq {t : List (Nat × Nat)} {v w : Nat} (ht : ∀ p ∈ t, p.1 < 60)
    (hv : onesWeight (encodeAt c sign) t = v) (hw : onesWeight (encodeAt d sign) t = w) : v = w := by
  rw [← hv, ← hw]
  refine congrArg List.sum (List.map_congr_left fun p hp => ?_)
  rw [encodeAt_eq_of_encodeFrame_eq h (ht p hp)]

/-- Equal frames of valid calendars are of the same minute, hour, day of the year and year. -/
theorem fields_eq_of_encodeFrame_eq {y00 : Bool} (hc : c.Valid y00) (hd : d.Valid y00) :
    c.min = d.min ∧ c.hour = d.hour ∧ c.doy = d.doy ∧ c.year = d.year := by
  refine ⟨BitVec.eq_of_toNat_eq ?_, BitVec.eq_of_toNat_eq ?_, BitVec.eq_of_toNat_eq ?_, BitVec.eq_of_toNat_eq ?_⟩
  · exact fieldValue_eq_of_encodeFrame_eq h (by decide) (onesWeight_minute c sign hc.min_le)
      (onesWeight_minute d sign hd.min_le)
  · exact fieldValue_eq_of_encodeFrame_eq h (by decide) (onesWeight_hour c sign hc.hour_le)
      (onesWeight_hour d sign hd.hour_le)
  · exact fieldValue_eq_of_encodeFrame_eq h (by decide) (onesWeight_doy c sign hc.doy_bounds.2)
      (onesWeight_doy d sign hd.doy_bounds.2)
  · exact fieldValue_eq_of_encodeFrame_eq h (by decide) (onesWeight_year c sign hc.year_le)
      (onesWeight_year d sign hd.year_le)

end

/-! ## Which events draw (`00_scope.md` R8, R172) -/

/-- The state stands at the tick that ends position 59 (R121). -/
def State.EndsMinute (s : State) : Prop :=
  s.active = true ∧ s.tcnt.toNat + 1 ≠ s.cfg.lowDur s.curk ∧ s.cfg.e ≤ s.tcnt.toNat + 1 ∧ s.pos.val = 59

section
variable {s : State}

theorem execNext_tick_endsMinute_undefined (h : s.EndsMinute) (hu : s.undef = true) :
    (execNext .tick s).frame = drawnFrame (Config.drawFrame s.drawNo) ∧
      (execNext .tick s).drawNo = s.drawNo + 1 := by
  obtain ⟨ha, hl, he, hp⟩ := h
  rw [execNext_tick_endBit ha hl he, s.endBit_of_wrap_undefined hp hu]
  exact ⟨rfl, rfl⟩

theorem execNext_tick_endsMinute_defined (h : s.EndsMinute) (hu : s.undef = false) :
    (execNext .tick s).drawNo = s.drawNo := by
  obtain ⟨ha, hl, he, hp⟩ := h
  rw [execNext_tick_endBit ha hl he, s.endBit_of_wrap_defined hp hu]

/-- Every other tick keeps the frame and draws nothing. -/
theorem execNext_tick_of_not_endsMinute (h : ¬ s.EndsMinute) :
    (execNext .tick s).frame = s.frame ∧ (execNext .tick s).drawNo = s.drawNo := by
  rw [execNext_tick]
  obtain ⟨he, -⟩ | ⟨he, -⟩ | ⟨he, ha, hn, hge⟩ | ⟨he, -⟩ := tickEffect_cases s.cfg s.active s.curk s.tcnt
  · rw [he]
    exact ⟨rfl, rfl⟩
  · rw [he]
    exact ⟨rfl, rfl⟩
  · have hpos : s.pos.val ≠ 59 := fun hp => h ⟨ha, hn, hge, hp⟩
    rw [he]
    dsimp only
    rw [s.endBit_of_lt (by omega)]
    exact ⟨rfl, rfl⟩
  · rw [he]
    exact ⟨rfl, rfl⟩

/-- The instructions that draw in no state. -/
def neverDraws : Instr → Bool
  | .setTime _ _ _ _ _ _ | .advance _ _ | .getTime | .getDoy | .tick => false
  | .nop | .start | .stop | .resume | .isActive | .bitkindAt _ | .getTimer | .reset => true

theorem execNext_drawNo_of_neverDraws {i : Instr} (h : neverDraws i = true) :
    (execNext i s).drawNo = s.drawNo := by
  cases i with
  | nop | start | stop | resume | isActive | getTimer | reset => rfl
  | bitkindAt idx =>
    rw [execNext_bitkindAt]
    split <;> rfl
  | setTime | advance | getTime | getDoy | tick => cases h

theorem execNext_read_drawNo_of_undefined {i : Instr} (hi : i = .getTime ∨ i = .getDoy) (hu : s.undef = true) :
    (execNext i s).drawNo = s.drawNo + 1 := by
  obtain rfl | rfl := hi
  · rw [execNext_getTime_undefined s hu]
  · rw [execNext_getDoy_undefined s hu]

theorem State.rederive_drawNo_cases (s : State) :
    s.rederive.drawNo = s.drawNo ∨ s.rederive.undef = true ∧ s.rederive.drawNo = s.drawNo + 1 := by
  obtain ⟨-, h⟩ | ⟨hu, h⟩ := s.rederive_cases
  · rw [h]
    exact .inl rfl
  · rw [h]
    exact .inr ⟨hu, rfl⟩

theorem State.afterRead_drawNo_cases (s : State) :
    s.afterRead.drawNo = s.drawNo ∨ s.afterRead.undef = true ∧ s.afterRead.drawNo = s.drawNo + 1 := by
  cases hu : s.undef with
  | false =>
    rw [s.afterRead_defined hu]
    exact .inl rfl
  | true =>
    rw [s.afterRead_undefined hu]
    exact .inr ⟨hu, rfl⟩

/-- An event draws once, leaving the calendar undefined, or not at all. -/
theorem execNext_drawNo_cases (i : Instr) :
    (execNext i s).drawNo = s.drawNo ∨
      (execNext i s).undef = true ∧ (execNext i s).drawNo = s.drawNo + 1 := by
  cases i with
  | setTime mi hr dy mo yr ds =>
    obtain ⟨c, hc⟩ := setTimeCalendar_eq mi hr dy mo yr ds s
    rw [execNext_setTime, hc]
    exact (s.setCalendar c _).rederive_drawNo_cases
  | advance ah am => simpa [execNext_advance] using (s.advanceCalendar (advanceMinutes ah am)).rederive_drawNo_cases
  | getTime | getDoy => exact s.afterRead_drawNo_cases
  | tick =>
    by_cases h : s.EndsMinute
    · cases hu : s.undef with
      | false => exact .inl (execNext_tick_endsMinute_defined h hu)
      | true => exact .inr ⟨by rw [execNext_tick_undef, hu], (execNext_tick_endsMinute_undefined h hu).2⟩
    · exact .inl (execNext_tick_of_not_endsMinute h).2
  | nop | start | stop | resume | isActive | bitkindAt | getTimer | reset =>
    exact .inl (execNext_drawNo_of_neverDraws rfl)

/-- Between re-derivations an undefined frame stands, and only the reads draw. -/
theorem execNext_between_rederivations {i : Instr} (hu : s.undef = true) (ht : (execNext i s).undef = true)
    (hset : ∀ mi hr dy mo yr ds, i ≠ .setTime mi hr dy mo yr ds) (hadv : ∀ ah am, i ≠ .advance ah am)
    (htick : i ≠ .tick) :
    (execNext i s).frame = s.frame ∧
      (i = .getTime ∨ i = .getDoy → (execNext i s).drawNo = s.drawNo + 1) ∧
      (i ≠ .getTime → i ≠ .getDoy → (execNext i s).drawNo = s.drawNo) := by
  have hkind : (i = .start ∨ i = .stop ∨ i = .resume ∨ onlyAnswers i = true) ∧
      (i ≠ .getTime → i ≠ .getDoy → neverDraws i = true) := by
    cases i with
    | setTime mi hr dy mo yr ds => exact absurd rfl (hset mi hr dy mo yr ds)
    | advance ah am => exact absurd rfl (hadv ah am)
    | tick => exact absurd rfl htick
    | reset => cases ht
    | nop | start | stop | resume | isActive | getTime | getDoy | bitkindAt | getTimer => simp [onlyAnswers, neverDraws]
  obtain ⟨hkeeps, hdraws⟩ := hkind
  exact ⟨(execNext_keeps_encoder s hkeeps).2.1, fun hi => execNext_read_drawNo_of_undefined hi hu,
    fun h1 h2 => execNext_drawNo_of_neverDraws (hdraws h1 h2)⟩

end

/-! ## The obligations -/

/-- Settles O44: no field assigns MARKER, and no draw does. -/
theorem markersStandAtTheirPositions : Obligations.MarkersStandAtTheirPositions := fun c sign draws i =>
  ⟨encodeFrame_markersExact c sign i, drawnFrame_markersExact draws i⟩

/-- Settles O45: every field's table is gapless. -/
theorem fieldWeightsSumToTheValue : Obligations.FieldWeightsSumToTheValue := by
  intro c sign b
  have hb (i : Fin 60) : b i = if encodeAt c sign i.val = .one then 1 else 0 := encodeFrame_bit c sign i
  refine ⟨fun h => ?_, fun h => ?_, fun _ h => ?_, fun h => ?_⟩
  · rw [← onesWeight_minute c sign h]
    simp [hb, onesWeight, minuteTable, Nat.add_assoc]
  · rw [← onesWeight_hour c sign h]
    simp [hb, onesWeight, hourTable, Nat.add_assoc]
  · rw [← onesWeight_doy c sign h]
    simp [hb, onesWeight, doyTable, Nat.add_assoc]
  · rw [← onesWeight_year c sign h]
    simp [hb, onesWeight, yearTable, Nat.add_assoc]

/-- Settles O46: none of these positions is a marker's or a field's. -/
theorem unusedPositionsAreZero : Obligations.UnusedPositionsAreZero := by
  intro c sign i hi
  have hfree : ∀ j ∈ [4, 10, 11, 14, 20, 21, 24, 34, 35, 44, 54], j ∉ markerSet ∧ j ∉ fieldPositions := by decide
  rw [encodeFrame_get, encodeAt_of_notMem (hfree _ hi).1 (hfree _ hi).2]

/-- Settles O47: the sign positions and the magnitude are constants of the field, and 34 and 35 are unused. -/
theorem dut1FieldIsConstant : Obligations.Dut1FieldIsConstant := by
  intro c i
  simp only [encodeFrame_get]
  refine ⟨fun sign hi => ?_, fun hi => ?_, fun hi => ?_⟩
  · have hcases : ∀ j ∈ [34, 35, 40, 41, 42, 43],
        j ∉ markerSet ∧ j ∉ fieldPositions ∨ (j, BitKind.zero) ∈ dut1Bits sign := by cases sign <;> decide
    obtain ⟨hm, hf⟩ | h := hcases _ hi
    · exact encodeAt_of_notMem hm hf
    · exact encodeAt_of_mem_dut1Bits h
  · have hsign : ∀ j ∈ [36, 38], (j, BitKind.zero) ∈ dut1Bits .neg ∧ (j, BitKind.one) ∈ dut1Bits .pos := by decide
    exact ⟨encodeAt_of_mem_dut1Bits (hsign _ hi).1, encodeAt_of_mem_dut1Bits (hsign _ hi).2⟩
  · rw [hi]
    exact ⟨encodeAt_of_mem_dut1Bits (by decide), encodeAt_of_mem_dut1Bits (by decide)⟩

/-- Settles O48: four flags of the calendar at their positions, and 54 is unused. -/
theorem miscFieldCarriesLeapAndDst : Obligations.MiscFieldCarriesLeapAndDst := by
  intro c sign f
  have hf (i : Fin 60) {k : BitKind} (h : (i.val, k) ∈ miscBits c) : f[i] = k := by
    rw [encodeFrame_get, encodeAt_of_mem_miscBits h]
  refine ⟨hf 55 ?_, hf 56 ?_, hf 57 ?_, hf 58 ?_, unusedPositionsAreZero c sign 54 (by decide)⟩ <;>
    simp [miscBits, dataKind]

/-- Settles O49: each field tells its registers, and the day of the year and the leap flag tell the date. -/
theorem frameDeterminesTheCalendar : Obligations.FrameDeterminesTheCalendar := by
  intro y00 c d sign hc hd hlsw h
  obtain ⟨hmin, hhour, hdoy, hyear⟩ := fields_eq_of_encodeFrame_eq h hc hd
  have hdst := dst_eq_of_encodeFrame_eq h
  have hleap : c.leap = d.leap := by rw [hc.leap_eq, hyear, hd.leap_eq]
  obtain ⟨hmon, hday⟩ := hc.date_eq hd hleap hdoy
  cases c
  cases d
  simp_all only

/-- Settles O50, clause by clause: only a re-derivation and a read of an undefined calendar draw. -/
theorem undefinedFrameIsRedrawnOnlyAtRederivations : Obligations.UndefinedFrameIsRedrawnOnlyAtRederivations := by
  intro i s t hexec
  obtain rfl := execNext_eq_of_exec hexec
  have hdraw := execNext_drawNo_cases (s := s) i
  refine ⟨by omega, fun hu => hdraw.resolve_right (by simp [hu]), ?_, ?_, ?_, execNext_between_rederivations⟩
  · rintro hu ⟨mi, hr, dy, mo, yr, ds, rfl⟩
    rw [execNext_setTime_undef] at hu
    rw [execNext_setTime_illegal s ds hu]
    exact ⟨rfl, rfl⟩
  · rintro hu ⟨ah, am, rfl⟩
    rw [execNext_advance_undefined s ah am hu]
    exact ⟨rfl, rfl⟩
  · rintro hu rfl
    exact ⟨fun h => execNext_tick_endsMinute_undefined h hu, execNext_tick_of_not_endsMinute⟩

end Sys2Proof.Machine

namespace Sys2Proof.Machine

/-! ## The tables of `44_calendar.md` (R180 to R183) as predicates -/

theorem isLeap_iff {y00 : Bool} {y : Nat} : isLeap y00 y = true ↔ 4 ∣ y ∧ (y ≠ 0 ∨ y00 = true) := by
  simp [isLeap, Nat.dvd_iff_mod_eq_zero]

theorem monthLen_eq {m : Nat} (h1 : 1 ≤ m) (h2 : m ≤ 12) (leap : Bool) :
    monthLen m leap = if m = 2 then (if leap = true then 29 else 28)
      else if m = 4 ∨ m = 6 ∨ m = 9 ∨ m = 11 then 30 else 31 := by
  interval_cases m <;> rfl

theorem daysBefore_eq {m : Nat} (h1 : 1 ≤ m) (h2 : m ≤ 12) :
    daysBefore m = [0, 31, 59, 90, 120, 151, 181, 212, 243, 273, 304, 334].getD (m - 1) 0 := by
  interval_cases m <;> rfl

theorem legalTime_iff {y00 : Bool} {mi hr dy mo yr : Nat} :
    legalTime y00 mi hr dy mo yr = true ↔
      mi ≤ 59 ∧ hr ≤ 23 ∧ (1 ≤ mo ∧ mo ≤ 12) ∧ yr ≤ 99 ∧ 1 ≤ dy ∧ dy ≤ monthLen mo (isLeap y00 yr) := by
  simp [legalTime, and_assoc]

/-! ## The one-minute advance by the corners it meets (R184) -/

/-- `x + 1` narrowed to the register of `x` is the register's own increment. -/
theorem ofNat_toNat_succ {w : Nat} (x : BitVec w) : BitVec.ofNat w (x.toNat + 1) = x + 1#w := by
  rw [BitVec.ofNat_add, BitVec.ofNat_toNat, BitVec.setWidth_eq]

/-- The last line of R184, once the day of the year is known. -/
theorem Calendar.deriveDoy_eq {c : Calendar} {v : BitVec 9}
    (h : v.toNat = dayOfYear c.day.toNat c.mon.toNat c.leap) : c.deriveDoy = { c with doy := v } := by
  rw [Calendar.deriveDoy, ← h, BitVec.ofNat_toNat, BitVec.setWidth_eq]

section
variable {y00 : Bool} {c : Calendar}

/-- `DOY + 1` fits the register. -/
theorem Calendar.Valid.doy_succ_toNat (h : c.Valid y00) :
    (c.doy + 1#9).toNat = dayOfYear c.day.toNat c.mon.toNat c.leap + 1 := by
  have hdoy := h.doy_bounds
  rw [← h.doy_eq]
  bv_omega

theorem Calendar.Valid.advanceOneMinute_within_hour (h : c.Valid y00) (hmin : c.min.toNat < 59) :
    c.advanceOneMinute y00 = { c with min := c.min + 1#6 } := by
  rw [Calendar.advanceOneMinute_of_min_lt y00 c hmin, ofNat_toNat_succ]
  exact Calendar.deriveDoy_eq h.doy_eq

theorem Calendar.Valid.advanceOneMinute_end_of_hour (h : c.Valid y00) (hmin : c.min = 59#6)
    (hhour : c.hour.toNat < 23) : c.advanceOneMinute y00 = { c with min := 0, hour := c.hour + 1#5 } := by
  rw [Calendar.advanceOneMinute, Calendar.nextMinute_wrap y00 c (by rw [hmin]; rfl),
    Calendar.nextHour_next y00 _ (by exact Nat.ne_of_lt (Nat.succ_lt_succ hhour)), ofNat_toNat_succ]
  exact Calendar.deriveDoy_eq h.doy_eq

/-- At 23:59 the advance is that of the day, from 00:00. -/
theorem Calendar.advanceOneMinute_end_of_day (y00 : Bool) (c : Calendar) (hmin : c.min = 59#6)
    (hhour : c.hour = 23#5) :
    c.advanceOneMinute y00 = ({ c with min := 0, hour := 0 }.nextDay y00).deriveDoy := by
  rw [Calendar.advanceOneMinute, Calendar.nextMinute_wrap y00 c (by rw [hmin]; rfl),
    Calendar.nextHour_wrap y00 _ (by simp [hhour])]

theorem Calendar.Valid.advanceOneMinute_within_month (h : c.Valid y00) (hmin : c.min = 59#6) (hhour : c.hour = 23#5)
    (hday : c.day.toNat < monthLen c.mon.toNat c.leap) :
    c.advanceOneMinute y00 = { c with min := 0, hour := 0, day := c.day + 1#5, doy := c.doy + 1#9 } := by
  have hlen := monthLen_bounds h.mon_pos h.mon_le c.leap
  have hsucc : (c.day + 1#5).toNat = c.day.toNat + 1 := by bv_omega
  rw [c.advanceOneMinute_end_of_day y00 hmin hhour, Calendar.nextDay_next y00 _ (by exact Nat.not_lt_of_le hday),
    ofNat_toNat_succ]
  refine Calendar.deriveDoy_eq ?_
  rw [h.doy_succ_toNat, hsucc, dayOfYear_succ]

theorem Calendar.Valid.advanceOneMinute_end_of_month (h : c.Valid y00) (hmin : c.min = 59#6) (hhour : c.hour = 23#5)
    (hday : c.day.toNat = monthLen c.mon.toNat c.leap) (hmon : c.mon.toNat < 12) :
    c.advanceOneMinute y00 = { c with min := 0, hour := 0, day := 1, mon := c.mon + 1#4, doy := c.doy + 1#9 } := by
  have hsucc : (c.mon + 1#4).toNat = c.mon.toNat + 1 := by bv_omega
  rw [c.advanceOneMinute_end_of_day y00 hmin hhour, Calendar.nextDay_wrap y00 _ (by exact Nat.lt_succ_of_le hday.ge),
    Calendar.nextMonth_next y00 _ (by exact Nat.ne_of_lt (Nat.succ_lt_succ hmon)), ofNat_toNat_succ]
  refine Calendar.deriveDoy_eq ?_
  rw [h.doy_succ_toNat, hsucc, hday]
  exact (daysBefore_succ h.mon_pos hmon c.leap).symm

/-- The year step of R184 is the increment modulo 100. -/
theorem Calendar.nextYear_eq_mod (h : c.year.toNat ≤ 99) :
    c.nextYear y00 =
      { c with
        year := BitVec.ofNat 7 ((c.year.toNat + 1) % 100)
        leap := isLeap y00 ((c.year.toNat + 1) % 100) } := by
  obtain h99 | hlt : c.year.toNat + 1 = 100 ∨ c.year.toNat + 1 < 100 := by omega
  · rw [Calendar.nextYear_wrap y00 c h99, h99]
    rfl
  · rw [Calendar.nextYear_next y00 c (Nat.ne_of_lt hlt), Nat.mod_eq_of_lt hlt]

theorem Calendar.Valid.advanceOneMinute_end_of_year (h : c.Valid y00) (hmin : c.min = 59#6) (hhour : c.hour = 23#5)
    (hday : c.day = 31#5) (hmon : c.mon = 12#4) :
    c.advanceOneMinute y00 =
      { c with
        min := 0, hour := 0, day := 1, mon := 1, doy := 1
        year := BitVec.ofNat 7 ((c.year.toNat + 1) % 100)
        leap := isLeap y00 ((c.year.toNat + 1) % 100) } := by
  rw [c.advanceOneMinute_end_of_day y00 hmin hhour,
    Calendar.nextDay_wrap y00 _ (by simp [hday, hmon, monthLen]),
    Calendar.nextMonth_wrap y00 _ (by simp [hmon]),
    Calendar.nextYear_eq_mod (by exact h.year_le)]
  refine Calendar.deriveDoy_eq ?_
  cases isLeap y00 ((c.year.toNat + 1) % 100) <;> rfl

/-- The corners leave out no valid calendar. -/
theorem Calendar.Valid.corner_cases (h : c.Valid y00) :
    c.min.toNat < 59 ∨
    (c.min = 59#6 ∧ c.hour.toNat < 23) ∨
    (c.min = 59#6 ∧ c.hour = 23#5 ∧ c.day.toNat < monthLen c.mon.toNat c.leap) ∨
    (c.min = 59#6 ∧ c.hour = 23#5 ∧ c.day.toNat = monthLen c.mon.toNat c.leap ∧ c.mon.toNat < 12) ∨
    (c.min = 59#6 ∧ c.hour = 23#5 ∧ c.day = 31#5 ∧ c.mon = 12#4) := by
  obtain hmin | hmin := Nat.lt_or_eq_of_le h.min_le
  · exact .inl hmin
  replace hmin : c.min = 59#6 := BitVec.eq_of_toNat_eq hmin
  obtain hhour | hhour := Nat.lt_or_eq_of_le h.hour_le
  · exact .inr (.inl ⟨hmin, hhour⟩)
  replace hhour : c.hour = 23#5 := BitVec.eq_of_toNat_eq hhour
  obtain hday | hday := Nat.lt_or_eq_of_le h.day_le
  · exact .inr (.inr (.inl ⟨hmin, hhour, hday⟩))
  obtain hmon | hmon := Nat.lt_or_eq_of_le h.mon_le
  · exact .inr (.inr (.inr (.inl ⟨hmin, hhour, hday, hmon⟩)))
  · rw [hmon] at hday
    exact .inr (.inr (.inr (.inr ⟨hmin, hhour, BitVec.eq_of_toNat_eq hday, BitVec.eq_of_toNat_eq hmon⟩)))

/-! ## Elapsed time (R184, R185) -/

/-- A valid calendar lies before the end of its year, and that before the end of the century. -/
theorem Calendar.Valid.minuteOfCentury_lt (h : c.Valid y00) : c.minuteOfCentury y00 < minutesPerCentury y00 := by
  have hmin := h.min_le
  have hhour := h.hour_le
  have hdoy := h.doy_bounds
  have hlast := dayOfYear_le h.mon_pos h.mon_le h.day_le
  have hnext : daysBeforeYear y00 (c.year.toNat + 1) ≤ daysBeforeYear y00 100 :=
    daysBeforeYear_mono y00 (Nat.succ_le_succ h.year_le)
  rw [daysBeforeYear_succ, ← h.leap_eq] at hnext
  rw [← h.doy_eq] at hlast
  unfold Calendar.minuteOfCentury minutesPerCentury
  omega

/-- The last minute of a year is the minute before the next year's first. -/
theorem Calendar.Valid.minuteOfCentury_end_of_year (h : c.Valid y00) (hmin : c.min = 59#6) (hhour : c.hour = 23#5)
    (hday : c.day = 31#5) (hmon : c.mon = 12#4) :
    c.minuteOfCentury y00 + 1 = 1440 * daysBeforeYear y00 (c.year.toNat + 1) := by
  have hdoy : c.doy.toNat = 365 + c.leap.toNat := by
    rw [h.doy_eq, hday, hmon]
    exact dayOfYear_last c.leap
  rw [daysBeforeYear_succ, ← h.leap_eq]
  simp only [Calendar.minuteOfCentury, hdoy, hmin, hhour, BitVec.reduceToNat]
  omega

/-- One minute on, or the wrap from the last minute of year 99 to the first of year 00. -/
theorem Calendar.Valid.minuteOfCentury_advanceOneMinute_cases (h : c.Valid y00) :
    (c.advanceOneMinute y00).minuteOfCentury y00 = c.minuteOfCentury y00 + 1 ∨
    (c.minuteOfCentury y00 + 1 = minutesPerCentury y00 ∧ (c.advanceOneMinute y00).minuteOfCentury y00 = 0) := by
  have hdoy := h.doy_bounds
  have hdoy1 := h.doy_succ_toNat
  rw [← h.doy_eq] at hdoy1
  obtain hmin | ⟨hmin, hhour⟩ | ⟨hmin, hhour, hday⟩ | ⟨hmin, hhour, hday, hmon⟩ | ⟨hmin, hhour, hday, hmon⟩ :=
    h.corner_cases
  · have hmin1 : (c.min + 1#6).toNat = c.min.toNat + 1 := by bv_omega
    rw [h.advanceOneMinute_within_hour hmin]
    simp only [Calendar.minuteOfCentury, hmin1]
    omega
  · have hhour1 : (c.hour + 1#5).toNat = c.hour.toNat + 1 := by bv_omega
    rw [h.advanceOneMinute_end_of_hour hmin hhour]
    simp only [Calendar.minuteOfCentury, hmin, hhour1, BitVec.reduceToNat]
    omega
  · rw [h.advanceOneMinute_within_month hmin hhour hday]
    simp only [Calendar.minuteOfCentury, hmin, hhour, hdoy1, BitVec.reduceToNat]
    omega
  · rw [h.advanceOneMinute_end_of_month hmin hhour hday hmon]
    simp only [Calendar.minuteOfCentury, hmin, hhour, hdoy1, BitVec.reduceToNat]
    omega
  · have hlast := h.minuteOfCentury_end_of_year hmin hhour hday hmon
    rw [h.advanceOneMinute_end_of_year hmin hhour hday hmon]
    obtain hyear | hyear := Nat.lt_or_eq_of_le h.year_le
    · have hy : (BitVec.ofNat 7 ((c.year.toNat + 1) % 100)).toNat = c.year.toNat + 1 := by
        rw [BitVec.toNat_ofNat]
        omega
      left
      rw [hlast]
      simp only [Calendar.minuteOfCentury, hy]
      rfl
    · rw [hyear] at hlast ⊢
      exact .inr ⟨hlast, rfl⟩

theorem Calendar.Valid.minuteOfCentury_advanceOneMinute (h : c.Valid y00) :
    (c.advanceOneMinute y00).minuteOfCentury y00 = (c.minuteOfCentury y00 + 1) % minutesPerCentury y00 := by
  obtain hnext | ⟨hlast, hzero⟩ := h.minuteOfCentury_advanceOneMinute_cases
  · rw [← hnext, Nat.mod_eq_of_lt h.advanceOneMinute.minuteOfCentury_lt]
  · rw [hzero, hlast, Nat.mod_self]

end

theorem Calendar.advanceN_add (y00 : Bool) (c : Calendar) (m n : Nat) :
    c.advanceN y00 (m + n) = (c.advanceN y00 m).advanceN y00 n := by
  induction n with
  | zero => rfl
  | succ n ih => rw [← Nat.add_assoc, Calendar.advanceN_succ_last, ih, ← Calendar.advanceN_succ_last]

/-! ## Which instructions write the calendar (R187) -/

/-- An undefined calendar is not advanced at all. -/
theorem State.advanceCalendar_cal (s : State) (n : Nat) :
    ∃ m, (s.advanceCalendar n).cal = s.cal.advanceN s.cfg.leapY00 m := by
  cases h : s.undef with
  | false => exact ⟨n, by rw [s.advanceCalendar_defined n h]⟩
  | true => exact ⟨0, by rw [s.advanceCalendar_undefined n h, Calendar.advanceN_zero]⟩

theorem State.endBit_cal (s : State) : ∃ m, s.endBit.cal = s.cal.advanceN s.cfg.leapY00 m := by
  obtain hp | hp : s.pos.val < 59 ∨ s.pos.val = 59 := by omega
  · exact ⟨0, by rw [s.endBit_of_lt hp, Calendar.advanceN_zero]⟩
  · rw [s.endBit_of_wrap hp]
    simpa [State.advanceOneMinute] using (s.setPos 0).advanceCalendar_cal 1

theorem execNext_tick_cal (s : State) : ∃ m, (execNext .tick s).cal = s.cal.advanceN s.cfg.leapY00 m := by
  rw [execNext_tick]
  cases tickEffect s.cfg s.active s.curk s.tcnt with
  | endOfBit => exact s.endBit_cal
  | ignored | toHigh | count => exact ⟨0, rfl⟩

/-- Every other instruction advances the calendar by some number of minutes, mostly none. -/
theorem execNext_cal_cases (i : Instr) (s : State) :
    (∃ m, (execNext i s).cal = s.cal.advanceN s.cfg.leapY00 m) ∨ i = .reset ∨
      ∃ mi hr dy mo yr ds, i = .setTime mi hr dy mo yr ds := by
  have hkeep (h : i = .start ∨ i = .stop ∨ i = .resume ∨ onlyAnswers i = true) :
      ∃ m, (execNext i s).cal = s.cal.advanceN s.cfg.leapY00 m := ⟨0, (execNext_keeps_encoder s h).1⟩
  cases i with
  | setTime | reset => simp
  | advance ah am =>
    rw [execNext_advance, State.respond_cal, State.rederive_cal]
    exact .inl (s.advanceCalendar_cal _)
  | tick => exact .inl (execNext_tick_cal s)
  | start | stop | resume => exact .inl (hkeep (by simp))
  | nop | isActive | getTime | getDoy | bitkindAt | getTimer => exact .inl (hkeep (.inr (.inr (.inr rfl))))

theorem execNext_setTime_lsw (mi : BitVec 6) (hr dy : BitVec 5) (mo : BitVec 4) (yr : BitVec 7) (ds : BitVec 2)
    (s : State) : (execNext (.setTime mi hr dy mo yr ds) s).cal.lsw = s.cal.lsw := by
  rw [← setTimeCalendar_lsw mi hr dy mo yr ds s]
  simp [execNext_setTime]

/-! ## The obligations -/

/-- Settles O30: `Legal` clause by clause, the length of the month by the table. -/
theorem legalOperandsAreTheGregorianDates : Obligations.LegalOperandsAreTheGregorianDates := by
  intro y00 mi hr dy mo yr
  rw [legalTime_iff]
  refine and_congr_right' (and_congr_right' (and_congr_right fun hmo => ?_))
  rw [monthLen_eq hmo.1 hmo.2]
  simp only [isLeap_iff]

/-- Settles O38, by induction on the minutes. -/
theorem advanceIsElapsedTime : Obligations.AdvanceIsElapsedTime := by
  intro y00 c n h
  induction n with
  | zero => exact (Nat.mod_eq_of_lt h.minuteOfCentury_lt).symm
  | succ n ih =>
    rw [Calendar.advanceN_succ_last, (h.advanceN n).minuteOfCentury_advanceOneMinute, ih, Nat.mod_add_mod,
      Nat.add_assoc]

/-- Settles O39: the carry chain keeps every register in its range and never writes `LSW`. -/
theorem advancePreservesTheCalendarInvariant : Obligations.AdvancePreservesTheCalendarInvariant := fun y00 c h =>
  ⟨⟨h.advanceOneMinute, (c.advanceOneMinute_lsw y00).trans⟩, fun n => ⟨h.advanceN n, (c.advanceN_lsw y00 n).trans⟩⟩

/-- Settles O40, corner by corner. -/
theorem rollOverCorners : Obligations.RollOverCorners := by
  intro y00 c h d
  refine ⟨h.advanceOneMinute_within_hour, h.advanceOneMinute_end_of_hour, h.advanceOneMinute_within_month,
    h.advanceOneMinute_end_of_month, fun hmin hhour hday hmon => ?_⟩
  have hd : d = _ := h.advanceOneMinute_end_of_year hmin hhour hday hmon
  have hyear : (BitVec.ofNat 7 ((c.year.toNat + 1) % 100)).toNat = (c.year.toNat + 1) % 100 :=
    Nat.mod_eq_of_lt (by omega)
  rw [hd]
  exact ⟨rfl, rfl, rfl, rfl, rfl, rfl, rfl, hyear, rfl⟩

/-- Settles O41: the table, and its range over the legal dates. -/
theorem dayOfYearTableAndRange : Obligations.DayOfYearTableAndRange := by
  refine ⟨fun d m leap h1 h2 => ?_, rfl, fun y00 mi hr dy mo yr h => ?_⟩
  · rw [dayOfYear, daysBefore_eq h1 h2]
    simp only [Bool.and_eq_true, decide_eq_true_eq, gt_iff_lt]
  · obtain ⟨-, -, ⟨hmo1, hmo12⟩, -, hdy1, hdy⟩ := legalTime_iff.mp h
    refine ⟨dayOfYear_pos _ hdy1, (dayOfYear_le hmo1 hmo12 hdy).trans ?_⟩
    cases isLeap y00 yr <;> decide

/-- Settles O42: advances add, and the frame is that of the calendar reached. -/
theorem advancesCompose : Obligations.AdvancesCompose := by
  intro s ah am ah' am' ah'' am'' hu hsum
  refine ⟨_, exec_eq_next _ s, ?_⟩
  have hsum' : advanceMinutes ah'' am'' = advanceMinutes ah am + advanceMinutes ah' am' := hsum
  rw [exec_eq_next, exec_eq_next, execNext_advance_defined s ah'' am'' hu, hsum', Calendar.advanceN_add,
    execNext_advance_defined s ah am hu, execNext_advance_defined _ ah' am' (by exact hu)]

/-- Settles O43: an advance writes neither register, and SET_TIME not `LSW`. -/
theorem onlySetTimeAndResetChangeDst : Obligations.OnlySetTimeAndResetChangeDst := by
  intro i s t hexec
  obtain rfl := execNext_eq_of_exec hexec
  obtain ⟨m, hm⟩ | rfl | ⟨mi, hr, dy, mo, yr, ds, rfl⟩ := execNext_cal_cases i s
  · rw [hm]
    exact ⟨fun hne => absurd (Calendar.advanceN_dst _ _ m) hne, fun hne => absurd (Calendar.advanceN_lsw _ _ m) hne⟩
  · exact ⟨fun _ => .inl rfl, fun _ => rfl⟩
  · exact ⟨fun _ => .inr ⟨_, _, _, _, _, _, rfl⟩, fun hne => absurd (execNext_setTime_lsw mi hr dy mo yr ds s) hne⟩

end Sys2Proof.Machine

namespace Sys2Proof

/-! ## The conditions of the four error causes (`60_exceptions.md` R202) -/

section
variable (sel : BitVec 3) (reserved : BitVec 20) (idx : BitVec 6)

/-- Only the opcode check, which `Decode` makes before it reads format R, reports a reserved opcode. -/
theorem decodeRead_ne_reservedOpcode : decodeRead sel reserved idx ≠ .illegal .reservedOpcode := by
  rcases decodeRead_cases sel reserved idx with
    ⟨-, h⟩ | ⟨-, -, h⟩ | ⟨-, -, -, h⟩ | ⟨-, -, -, h⟩ | ⟨-, -, -, h⟩ | ⟨-, -, -, h⟩ | ⟨-, -, -, h⟩ | ⟨-, -, -, h⟩ <;>
    simp [h]

/-- The first check of format R looks at the selector alone. -/
theorem decodeRead_eq_reservedSelector_iff :
    decodeRead sel reserved idx = .illegal .reservedSelector ↔ 5 ≤ sel.toNat := by
  rcases decodeRead_cases sel reserved idx with
    ⟨hs, h⟩ | ⟨hs, -, h⟩ | ⟨rfl, -, -, h⟩ | ⟨rfl, -, -, h⟩ | ⟨rfl, -, -, h⟩ | ⟨rfl, -, -, h⟩ | ⟨rfl, -, -, h⟩ |
    ⟨rfl, -, -, h⟩
  · exact iff_of_true h hs
  · simp [h, hs]
  all_goals simp [h]

/-- The second check of format R: only BITKIND_AT (selector 3) reads the index field. -/
theorem decodeRead_eq_reservedBits_iff :
    decodeRead sel reserved idx = .illegal .reservedBits ↔
      sel.toNat < 5 ∧ (reserved ≠ 0#20 ∨ (sel ≠ 3#3 ∧ idx ≠ 0#6)) := by
  rcases decodeRead_cases sel reserved idx with
    ⟨hs, h⟩ | ⟨hs, hr, h⟩ | ⟨rfl, rfl, -, h⟩ | ⟨rfl, rfl, -, h⟩ | ⟨rfl, rfl, rfl, h⟩ | ⟨rfl, rfl, rfl, h⟩ |
    ⟨rfl, rfl, rfl, h⟩ | ⟨rfl, rfl, rfl, h⟩
  · simp [h, Nat.not_lt.mpr hs]
  · exact iff_of_true h ⟨hs, hr⟩
  all_goals simp [h]

/-- The last check of format R is reached by BITKIND_AT (selector 3) with its reserved bits 0. -/
theorem decodeRead_eq_indexRange_iff :
    decodeRead sel reserved idx = .illegal .indexRange ↔ sel = 3#3 ∧ reserved = 0#20 ∧ 60 ≤ idx.toNat := by
  rcases decodeRead_cases sel reserved idx with
    ⟨hs, h⟩ | ⟨-, hr, h⟩ | ⟨hs, hr, hi, h⟩ | ⟨-, -, hi, h⟩ | ⟨rfl, -, -, h⟩ | ⟨rfl, -, -, h⟩ | ⟨rfl, -, -, h⟩ |
    ⟨rfl, -, -, h⟩
  · have h3 : sel ≠ 3#3 := by rintro rfl; exact absurd hs (by decide)
    simp [h, h3]
  · obtain h0 | ⟨h3, -⟩ := hr
    · simp [h, h0]
    · simp [h, h3]
  · exact iff_of_true h ⟨hs, hr, hi⟩
  · simp [h, hi]
  all_goals simp [h]

end

section
variable (w : Word)

/-- The opcode is checked before anything else. -/
theorem decode_eq_reservedOpcode_iff : decode w = .illegal .reservedOpcode ↔ w.extractLsb' 29 3 = 7#3 := by
  rcases decode_op_cases w with
    ⟨ho, h⟩ | ⟨ho, -, h⟩ | ⟨ho, -, h⟩ | ⟨ho, -, h⟩ | ⟨ho, -, h⟩ | ⟨ho, -, h⟩ | ⟨ho, h⟩ | ⟨ho, -, h⟩ | ⟨ho, -, h⟩ |
    ⟨ho, h⟩
  · exact iff_of_true h ho
  · rcases ho with ho | ho | ho | ho <;> simp [h, ho]
  all_goals simp [h, ho, decodeRead_ne_reservedOpcode]

/-- A cause that only the checks of format R report is reported for READ words alone. -/
theorem decode_eq_readCause_iff {c : Cause} (hop : c ≠ .reservedOpcode) (hbits : c ≠ .reservedBits) :
    decode w = .illegal c ↔ w.extractLsb' 29 3 = 6#3 ∧
      decodeRead (w.extractLsb' 26 3) (w.extractLsb' 6 20) (w.extractLsb' 0 6) = .illegal c := by
  rcases decode_op_cases w with
    ⟨ho, h⟩ | ⟨ho, -, h⟩ | ⟨ho, -, h⟩ | ⟨ho, -, h⟩ | ⟨ho, -, h⟩ | ⟨ho, -, h⟩ | ⟨ho, h⟩ | ⟨ho, -, h⟩ | ⟨ho, -, h⟩ |
    ⟨ho, h⟩
  · simp [h, ho, hop.symm]
  · rcases ho with ho | ho | ho | ho <;> simp [h, ho, hbits.symm]
  all_goals simp [h, ho, hbits.symm]

/-- Formats N, A and R each check their own reserved bits. -/
theorem decode_eq_reservedBits_iff :
    decode w = .illegal .reservedBits ↔
      ((w.extractLsb' 29 3 = 0#3 ∨ w.extractLsb' 29 3 = 3#3 ∨ w.extractLsb' 29 3 = 4#3 ∨ w.extractLsb' 29 3 = 5#3) ∧
        w.extractLsb' 0 29 ≠ 0#29) ∨
      (w.extractLsb' 29 3 = 2#3 ∧ w.extractLsb' 16 13 ≠ 0#13) ∨
      (w.extractLsb' 29 3 = 6#3 ∧ (w.extractLsb' 26 3).toNat < 5 ∧
        (w.extractLsb' 6 20 ≠ 0#20 ∨ (w.extractLsb' 26 3 ≠ 3#3 ∧ w.extractLsb' 0 6 ≠ 0#6))) := by
  rcases decode_op_cases w with
    ⟨ho, h⟩ | ⟨ho, hr, h⟩ | ⟨ho, hr, h⟩ | ⟨ho, hr, h⟩ | ⟨ho, hr, h⟩ | ⟨ho, hr, h⟩ | ⟨ho, h⟩ | ⟨ho, hr, h⟩ |
    ⟨ho, hr, h⟩ | ⟨ho, h⟩
  case inr.inl => exact iff_of_true h (.inl ⟨ho, hr⟩)
  case inr.inr.inr.inr.inr.inr.inr.inr.inr => simp [h, ho, decodeRead_eq_reservedBits_iff]
  all_goals simp [*]

end

/-- A READ word's selector is the first thing its format checks. -/
theorem decode_eq_reservedSelector_iff (w : Word) :
    decode w = .illegal .reservedSelector ↔ w.extractLsb' 29 3 = 6#3 ∧ 5 ≤ (w.extractLsb' 26 3).toNat := by
  rw [decode_eq_readCause_iff w (by decide) (by decide), decodeRead_eq_reservedSelector_iff]

/-- Settles O4, cause by cause; the example has a reserved selector and a reserved bit set. -/
theorem firstFaultIsReported : Obligations.FirstFaultIsReported := by
  refine ⟨fun w => ⟨decode_eq_reservedOpcode_iff w, decode_eq_reservedSelector_iff w, ?_,
    decode_eq_reservedBits_iff w⟩, (decode_eq_reservedSelector_iff _).mpr (by decide)⟩
  rw [decode_eq_readCause_iff w (by decide) (by decide), decodeRead_eq_indexRange_iff]

end Sys2Proof

namespace Sys2Proof.Machine

/-! ## The first tick of a bit (`41_bit_scheduler.md` R121, `70_reset_and_hazards.md` R227) -/

/-- No bit is one tick long, so the first tick of a bit cannot end it. -/
theorem State.BitBegins.execNext_tick {s : State} (h : s.BitBegins) : execNext .tick s = s.withinBit 1 := by
  have hk := (Config.wellFormed_bounds h.cfg_ok).2 s.curk
  exact h.ticks (n := 1) (by omega)

section
variable {s : State} (hw : s.cfg.wellFormed = true)
include hw

/-- START begins the bit at `POS` (R102). -/
theorem bitBegins_execNext_start : (execNext .start s).BitBegins := ⟨hw, rfl, rfl, rfl⟩

/-- SET_TIME begins the bit at position 0, of a running block as a running one (R140). -/
theorem bitBegins_execNext_setTime (mi : BitVec 6) (hr dy : BitVec 5) (mo : BitVec 4) (yr : BitVec 7) (ds : BitVec 2)
    (ha : s.active = true) : (execNext (.setTime mi hr dy mo yr ds) s).BitBegins where
  cfg_ok := by rwa [execNext_cfg]
  active := by simp [execNext_setTime, ha]
  tcnt := rfl
  phase := rfl

end

/-! ## A tick and the response registers (`41_bit_scheduler.md` R121) -/

section
variable (s : State) (d : Word)

theorem State.endBit_respond : (s.respond d).endBit = s.endBit.respond d := by
  obtain h | h : s.pos.val < 59 ∨ s.pos.val = 59 := by omega
  · rw [(s.respond d).endBit_of_lt h, s.endBit_of_lt h]
    rfl
  · obtain hu | hu := Bool.eq_false_or_eq_true s.undef
    · rw [(s.respond d).endBit_of_wrap_undefined h hu, s.endBit_of_wrap_undefined h hu]
      rfl
    · rw [(s.respond d).endBit_of_wrap_defined h hu, s.endBit_of_wrap_defined h hu]
      rfl

/-- A tick neither reads nor writes the response. -/
theorem execNext_tick_respond : execNext .tick (s.respond d) = (execNext .tick s).respond d := by
  rw [execNext_tick, execNext_tick, State.respond_cfg, State.respond_active, State.respond_curk, State.respond_tcnt]
  cases tickEffect s.cfg s.active s.curk s.tcnt with
  | endOfBit => exact s.endBit_respond d
  | ignored | toHigh | count => rfl

end

/-! ## The words of START and GET_TIMER (`30_encoding.md` R72, R75) -/

theorem decode_startWord : decode 0x60000000#32 = .command .start := (start_withoutOperands.1 _).mpr rfl

theorem decode_getTimerWord : decode 0xD0000000#32 = .command .getTimer := (getTimer_withoutOperands.1 _).mpr rfl

/-! ## The frame after RESET (`70_reset_and_hazards.md` R221) -/

/-- 00:00 on day 1 of a year that is not a leap year: the day's weight 1 at 33 and the negative sign at 37. -/
theorem encodeAt_atReset_eq_one_iff (i : Fin 60) :
    encodeAt (Calendar.atReset false) .neg i.val = .one ↔ i.val = 33 ∨ i.val = 37 := by
  revert i
  decide

/-! ## The obligations -/

/-- Settles O14: the tick meets the state the command leaves; it keeps the response, a stopped block ignores it, and
it is the first of a bit that the command has begun. -/
theorem sameCycleConsequences : Obligations.SameCycleConsequences := by
  intro s rest hw
  obtain ⟨-, -, -, hstop⟩ := stopKeepsAllState
  refine ⟨fun hi => ?getTimer, hstop s rest hw, fun hi => ?resume, fun hi => ?start,
    fun w hop ha hi => ?setTime⟩
  case getTimer =>
    refine ⟨_, run_two_of_both hw decode_getTimerWord hi, ?_, ?_⟩
    · rw [execNext_getTimer, execNext_tick_respond, State.respond_rspData, timerWord_tcnt, State.setInputs_tcnt]
    · rw [execNext_getTimer, execNext_tick_respond, State.respond_rspErr]
  case resume =>
    refine ⟨_, exec_eq_next .tick _, (run_two_of_both hw decode_resumeWord hi).trans (congrArg _ ?_)⟩
    exact execNext_tick_respond { s with active := true, inputs := rest } 0
  case start =>
    have hb : (execNext .start (s.setInputs rest)).BitBegins := bitBegins_execNext_start hw
    have hrun := run_two_of_both hw decode_startWord hi
    rw [hb.execNext_tick] at hrun
    exact ⟨_, hrun, rfl, rfl, rfl, rfl⟩
  case setTime =>
    have hb := bitBegins_execNext_setTime (s := s.setInputs rest) hw (w.extractLsb' 23 6) (w.extractLsb' 18 5)
      (w.extractLsb' 13 5) (w.extractLsb' 9 4) (w.extractLsb' 2 7) (w.extractLsb' 0 2) ha
    have hrun := run_two_of_both hw (decode_of_op_setTime hop) hi
    rw [hb.execNext_tick] at hrun
    exact ⟨_, hrun, rfl, rfl, rfl, execNext_inputs _ _⟩

/-- Settles O52: the outputs copy registers of R38, and the frame is that of the reset calendar. -/
theorem outputsAndFrameAfterReset : Obligations.OutputsAndFrameAfterReset := by
  intro s t hexec
  obtain rfl := execNext_eq_of_exec hexec
  refine ⟨outputs_reset s, fun hsign hleap i => ?_⟩
  have hframe : (execNext .reset s).frame = encodeFrame (Calendar.atReset false) .neg := by
    rw [← hsign, ← hleap]
    rfl
  rw [hframe, encodeFrame_get]
  exact encodeAt_atReset_eq_one_iff i

end Sys2Proof.Machine
